-- ==== Sys2Proof/Word.lean ====
section
/-! DEFINITION. The words of the part, its ports and its three motor phases. -/

namespace Sys2Proof

/-- One byte on a link. -/
abbrev Byte := BitVec 8

/-- A two-byte field of a frame: a status word, a signed reference, a restart number. -/
abbrev Half := BitVec 16

/-- The period counter and every period number kept from it (R94). -/
abbrev Period := BitVec 32

/-- A cell port, 0..23. -/
abbrev Port := Fin 24

/-- The three motor phases. -/
inductive Phase where
  | a | b | c
  deriving DecidableEq, Repr

/-- A quantity that exists once per phase. -/
structure Tri (α : Type) where
  a : α
  b : α
  c : α
  deriving DecidableEq, Repr

namespace Tri

/-- The value of one phase. -/
def get {α : Type} (t : Tri α) : Phase → α
  | .a => t.a
  | .b => t.b
  | .c => t.c

/-- The three values given by a function of the phase. -/
def of {α : Type} (f : Phase → α) : Tri α := ⟨f .a, f .b, f .c⟩

/-- The same value for each phase. -/
def all {α : Type} (v : α) : Tri α := ⟨v, v, v⟩

/-- The values in the order A, B, C. -/
def toList {α : Type} (t : Tri α) : List α := [t.a, t.b, t.c]

@[simp] theorem get_of {α : Type} (f : Phase → α) (x : Phase) : (of f).get x = f x := by
  cases x <;> rfl

@[simp] theorem get_all {α : Type} (v : α) (x : Phase) : (all v).get x = v := by
  cases x <;> rfl

end Tri

/-- The phases in the order A, B, C. -/
def Phase.list : List Phase := [.a, .b, .c]

end Sys2Proof
end

