-- ==== Sys2Proof/Config.lean ====
section
/-! DEFINITION. The values the spec leaves open. Each is an opaque constant, so that no proof can lean on it;
the configuration record of R157, which software sets, is state and stands in Machine/State.lean. -/

namespace Sys2Proof.Config

/-- DESIGN CHOICE (free value, log 14): the per-cell index of a phase whose string is empty, from the ramped output
and N_nom. R83 divides by N_x and says that N_x is at least 1 whenever the computation is made. -/
opaque emptyStringIndex : Int → Nat → Int

/-- DESIGN CHOICE (free value, log 13): the window start field of the CARRIER header while the window start is
absent. R174 codes an absent value in fields of one and two bytes only. -/
opaque absentWindowStart : Period

/-- DESIGN CHOICE (free value, log 13): the direction bit of an empty ACTUATION entry, 1 for CLOSED. R174 has no code
for an absent value in a field of one bit. -/
opaque emptyActuationClosed : Bool

/-- DESIGN CHOICE (free value, log 13): the enqueue period of an empty ACTUATION entry. R174 codes an absent value in
fields of one and two bytes only. -/
opaque emptyActuationEnqueued : Period

/-- DESIGN CHOICE (free value, log 13): the "trim or load count" field of a CARRIER entry whose frame sent is
"nothing" (R177). -/
opaque noPlanValue : Half

/-- DESIGN CHOICE (free value, log 7): how many frames at the head of a port's transmit list have been sent in full
since the list was last looked at so, by the port and by how often it has been. R136 gives the order in which the
frames are sent and no moment at which one of them ends. -/
opaque framesSent : Port → Nat → Nat

end Sys2Proof.Config
end

