-- ==== Sys2Proof/Syntax.lean ====
section
/-! DEFINITION. The commands of the part: one constructor per row of spec/opcode_table.json. -/

namespace Sys2Proof

/-- A REF frame that has passed the form check (R176): sequence, motion code, grant flag, grant token and the three
signed phase references. -/
structure RefFrame where
  seq : Byte
  motionCode : BitVec 3
  grant : Bool
  token : Byte
  vA : Half
  vB : Half
  vC : Half
  deriving DecidableEq, Repr

/-- An MGT frame that has passed the form check (R176): tag, request code and payload. Its length field is the
payload's length, 0..120 (R174). -/
structure MgtFrame where
  tag : Byte
  code : Byte
  payload : List Byte
  deriving DecidableEq, Repr

/-- The shares that the blocks take of one period start. R52 numbers the six of the Bypass Actuation Unit. -/
inductive PsStep where
  /-- BAU step 1: the supply sample (R53). -/
  | supply
  /-- CLI: the hold step (R144). -/
  | hold
  /-- CLI and RTU: the reference of the period just ended is handed over and taken (R77, R141). -/
  | reference
  /-- BAU step 2: an in-flight entry whose window has closed fails (R62). -/
  | fail
  /-- CRS: spare selection for the cell that a failed OPEN of its spare abandons (R15, R64). -/
  | select
  /-- BAU step 3: blind deeming (R65). -/
  | deem
  /-- RSQ: the gap step and the stage progression (R23, R46). -/
  | sequencer
  /-- BAU step 4: reconciliation (R54). -/
  | reconcile
  /-- BAU step 5: the settle count (R68). -/
  | settle
  /-- CLP: misses, linking counts and the entries to LOST that follow (R125 to R127). -/
  | links
  /-- CTU: the alignment window check (R106). -/
  | window
  /-- SSC: the leak of the clip buckets (R118). -/
  | leak
  /-- MGA: the application of PERIOD marks (R156). -/
  | commit
  /-- RTU: the computation (R78). -/
  | compute
  /-- BAU step 6: the issue of the head entry (R58). -/
  | issue
  /-- CTU: the carrier targets and the frame plans (R96, R100, R102, R103). -/
  | plan
  /-- CLP: the period command frames (R131). -/
  | compose
  deriving DecidableEq, Repr

/-- A frame arriving on a cell port: its bytes, and whether it arrives `late`, together with the period start that
follows it, so that a latch found in it reaches the Restart Sequencer after that period start (R45, R114; log 38). -/
structure StsArrival where
  bytes : List Byte
  late : Bool
  deriving DecidableEq, Repr

/-- The commands, one constructor per row of the table, in the table's order. -/
inductive Instr where
  /-- PIN_RESET: RESET_N falls (R170). -/
  | pinReset
  /-- RESET_N_RISE: RESET_N rises (R170). -/
  | resetNRise
  /-- PERIOD_START: the master carrier reaches position 0 counting up (R94). `supplyOk` is the level of
  BYPASS_SUPPLY_OK sampled there; `order` names the steps to take first, where the rules leave the order open. -/
  | periodStart (supplyOk : Bool) (order : List PsStep)
  /-- SAFETY_STOP_FALL: SAFETY_STOP_N passes from high to low (R168). -/
  | safetyStopFall
  /-- REF_FRAME: a well-formed REF frame arrives (R140). -/
  | refFrame (f : RefFrame)
  /-- MGT_FRAME: a well-formed MGT frame arrives (R151). -/
  | mgtFrame (f : MgtFrame)
  /-- BAD_DOWNSTREAM_FRAME: bytes arrive downstream that fail the form check (R139). -/
  | badDownstreamFrame (bytes : List Byte)
  /-- STS_FRAME: a frame arrives on a cell port (R129). -/
  | stsFrame (port : Port) (arrival : StsArrival)
  /-- READ_TABLE: service of the oldest waiting request, a READ_TABLE (R153). -/
  | readTable
  /-- WRITE_TABLE: service of the oldest waiting request, a WRITE_TABLE (R154). -/
  | writeTable
  /-- COMMIT: service of the oldest waiting request, a COMMIT (R155). -/
  | commit
  /-- SET_CONFIG: service of the oldest waiting request, a SET_CONFIG (R157). -/
  | setConfig
  /-- START: service of the oldest waiting request, a START (R158). -/
  | start
  /-- STOP: service of the oldest waiting request, a STOP (R159). -/
  | stop
  /-- CLEAR: service of the oldest waiting request, a CLEAR (R159). -/
  | clear
  /-- WARM_RESET: service of the oldest waiting request, a WARM_RESET (R160). -/
  | warmReset
  /-- FORCE_ZERO: service of the oldest waiting request, a FORCE_ZERO (R161). -/
  | forceZero
  /-- RELEASE: service of the oldest waiting request, a RELEASE (R161). -/
  | release
  /-- RELINK: service of the oldest waiting request, a RELINK (R128). -/
  | relink
  /-- READ_LOG: service of the oldest waiting request, a READ_LOG (R162). -/
  | readLog
  /-- UNKNOWN_REQUEST: service of the oldest waiting request, whose code is none of the twelve (R152). -/
  | unknownRequest
  /-- REPLY_SENT: the last byte of the oldest reply is sent upstream (R151). -/
  | replySent
  /-- WARM_RESET_EFFECT: the WARM_RESET reply has been sent and the warm reset takes effect (R160). -/
  | warmResetEffect
  /-- PORT_LOST: at a period start a port enters LOST (R127). -/
  | portLost (port : Port)
  /-- INHIBIT_HOLD_EXPIRY: at a period start the inhibit count reaches inhibit_hold (R24). -/
  | inhibitHoldExpiry
  /-- SETTLE_COMPLETE: at a period start the settle count completes and REMAP is entered (R68). -/
  | settleComplete
  /-- REMAP_COMPLETION: the period start after REMAP entry (R26). -/
  | remapCompletion
  /-- ALIGN_COMPLETE: at a period start of ALIGN every string cell is aligned (R105). -/
  | alignComplete
  /-- ALIGN_WINDOW_EXPIRY: the alignment window closes with cells unaligned (R106). -/
  | alignWindowExpiry
  /-- RESUME_ENTRY: the period start after a fresh grant (R28). -/
  | resumeEntry
  /-- RESUME_END: the period start that finds k equal to R (R30). -/
  | resumeEnd
  /-- GAP_EXPIRED: at a period start the gap count reaches gap_budget (R46). -/
  | gapExpired
  /-- CONTROL_LOST: at a period start in RUN the hold count reaches ref_hold_limit (R144). -/
  | controlLost
  /-- ACTUATION_FAILURE: at a period start the confirmation window of the in-flight entry closes (R62). -/
  | actuationFailure
  /-- BLIND_DEEMING: at a period start a LOST ISOLATING cell's blind wait has run out (R65). -/
  | blindDeeming
  /-- ACTUATION_ISSUE: at a period start the head entry is issued (R58). `supplyOk` is the level of
  BYPASS_SUPPLY_OK sampled there. -/
  | actuationIssue (supplyOk : Bool)
  /-- CLIP_LEAK: at a period start the leak count reaches leak_interval (R118). -/
  | clipLeak
  /-- PERIOD_COMMIT_APPLY: at a period start set PERIOD marks are applied (R156). -/
  | periodCommitApply
  /-- SAFETY_STOP_RISE: SAFETY_STOP_N passes from low to high (R168). -/
  | safetyStopRise
  deriving DecidableEq, Repr

end Sys2Proof
end

