-- ==== Sys2Proof/Machine/State.lean ====
section
/-! DEFINITION. The state of the part as plain data, its values after a pin reset, and the reasons a step can stop.
The names are the spec's; each field cites the rule that gives it. -/

namespace Sys2Proof.Machine

/-- The operating mode (R164). -/
inductive Mode where
  | standby | run | tripped | safeStop
  deriving DecidableEq, Repr

/-- The Restart Sequencer's stage (R21). -/
inductive Stage where
  | normal | inhibit | isolate | remap | align | awaitGrant | resume
  deriving DecidableEq, Repr

/-- The role of a cell (R1, R2). -/
inductive Role where
  | absent | active | spare | isolating | bypassed | failed
  deriving DecidableEq, Repr

/-- A bypass order, and the direction of an actuation (R2, R57). -/
inductive Order where
  | opened | closed
  deriving DecidableEq, Repr

/-- The bypass contact as a cell reports it (R1). -/
inductive Contact where
  | opened | closed | moving | unknown
  deriving DecidableEq, Repr

/-- The state of a cell link (R124). -/
inductive LinkState where
  | idle | linking | up | missing | lost
  deriving DecidableEq, Repr

/-- The command of a command frame (R131). -/
inductive Command where
  | switch | zero | block
  deriving DecidableEq, Repr

/-- The classification a screen entry gives (R111). -/
inductive Action where
  | pass | note | clip | latch | trip
  deriving DecidableEq, Repr

/-- The hoist's state of motion (section 2.3, R142). -/
inductive Motion where
  | braked | proving | accelerating | running | decelerating | creeping | levelling
  deriving DecidableEq, Repr

/-- The kinds of log record (R176). -/
inductive LogKind where
  | latchStatus | linkLost | alignFail | clipEscalated | tripStatus | bypassFail | spareOpenFail | restartForbidden
  | nestLimit | gapExpired | noRebalance | linkLostNoBlind | controlLost | safetyStop | recovered
  deriving DecidableEq, Repr

/-- The event flags, in the order of the table of R147. -/
inductive Flag where
  | latchAccepted | clip | note | tripCause | xformClamp | cellClamp | refOverrun | refDuplicate | refBadCrc
  | motionInvalid | grantStale | commitApplied | commitDropped | reqDropped | linkLost | bypassFail | spareOpenFail
  | alignFail | logWritten
  deriving DecidableEq, Repr

/-- The levels of the discrete inputs; true is high (R53, R168, R170). -/
structure Lines where
  resetN : Bool
  safetyStopN : Bool
  bypassSupplyOk : Bool
  deriving DecidableEq, Repr

/-- One roster entry (R1). -/
structure RosterEntry where
  installed : Bool
  role : Role
  position : Option Nat
  rank : Nat
  linkDelay : Nat
  bypassOrder : Order
  contact : Contact
  lastStatus : Half
  vdc : Nat
  noteCount : Nat
  clipBucket : Nat
  latchCount : Nat
  ineligible : Bool
  insertionTarget : Option Port
  deferred : Bool
  blind : Bool
  deriving DecidableEq, Repr

/-- One entry of the policy table (R32). -/
structure PolicyEntry where
  restartAllowed : Bool
  spareAllowed : Bool
  blindAllowed : Bool
  gapBudget : Nat
  rampPeriods : Nat
  maxNest : Nat
  deriving DecidableEq, Repr

/-- One context of the nest list (R34). `policy` is the episode policy, present in the bottom entry only. -/
structure Context where
  restartNumber : Half
  interrupted : Stage
  deficits : Tri Nat
  motion : Motion
  gapCount : Nat
  policy : Option PolicyEntry
  deriving DecidableEq, Repr

/-- The Restart Sequencer's state (R22). `nest` holds the bottom entry first. -/
structure Sequencer where
  stage : Stage
  nest : List Context
  gapCount : Nat
  restartNumber : Half
  rampGain : Nat
  resumeIndex : Nat
  inhibitCount : Nat
  grantPending : Bool
  resumeLength : Nat
  deriving DecidableEq, Repr

/-- The last three samples of BYPASS_SUPPLY_OK; true is "ok" (R53). -/
structure SupplyHistory where
  oldest : Bool
  middle : Bool
  newest : Bool
  deriving DecidableEq, Repr

/-- One entry of the actuation queue (R57). `issued` is absent while the entry waits. -/
structure Actuation where
  port : Port
  dir : Order
  enqueued : Period
  issued : Option Period
  deriving DecidableEq, Repr

/-- The Bypass Actuation Unit's state (R57, R70). `queue` holds the oldest entry first. -/
structure Bypass where
  supply : SupplyHistory
  queue : List Actuation
  retry : Vector Bool 24
  blindStart : Vector (Option Period) 24
  settleCount : Nat
  deriving DecidableEq, Repr

/-- One entry of the rebalance table (R73). `coef` holds the rows A, B, C, each with the weights of v_A, v_B, v_C. -/
structure RebalEntry where
  valid : Bool
  coef : Tri (Tri Half)
  ceiling : Nat
  deriving DecidableEq, Repr

/-- A compare pair (R84). -/
structure Pair where
  cL : Nat
  cR : Nat
  deriving DecidableEq, Repr

/-- The Reference Transform Unit's state and its readout (R77, R86, R87). `held` is the reference taken. -/
structure Transform where
  held : Tri Half
  fresh : Bool
  entryIndex : Option (Fin 64)
  gain : Nat
  y : Tri Int
  yRamped : Tri Int
  m : Tri Int
  pairs : Tri Pair
  xformClamps : Tri Nat
  cellClamps : Tri Nat
  deriving DecidableEq, Repr

/-- What a period frame carries for the carrier: nothing, a trim, or a phase load with its count and its direction,
`down` being true for a carrier that counts down (R97, R100). -/
inductive Plan where
  | nothing
  | trim (ticks : Int)
  | load (count : Nat) (down : Bool)
  deriving DecidableEq, Repr

/-- The capture of the last accepted status frame: c, the corrected capture c′, and the phase error formed from it,
absent where the port had no target (R98). -/
structure Capture where
  raw : Nat
  corrected : Nat
  error : Option Int
  deriving DecidableEq, Repr

/-- The Carrier Timing Unit's state for one port (R108). -/
structure CarrierPort where
  target : Option Nat
  lastError : Option Int
  capture : Option Capture
  sent : Plan
  passCount : Nat
  aligned : Bool
  deriving DecidableEq, Repr

/-- The Carrier Timing Unit's state (R93, R94, R108). `position` is the master carrier's position, 0..2P−1. -/
structure Carrier where
  position : Nat
  pInForce : Nat
  bases : Tri Nat
  counter : Period
  ports : Vector CarrierPort 24
  windowStart : Option Period
  deriving DecidableEq, Repr

/-- One entry of the screen table (R111). -/
structure ScreenEntry where
  valid : Bool
  mask : Half
  pattern : Half
  action : Action
  deriving DecidableEq, Repr

/-- A latch: its kind, the cell's port, and for the status-derived kinds the status word and the deciding entry
(R36, R119). -/
structure Latch where
  kind : LogKind
  port : Port
  word : Option (Half × Fin 16) := none
  deriving DecidableEq, Repr

/-- The Status Screen's counts (R111, R118), and the latches it has handed to the Restart Sequencer that have not
reached it yet, oldest first (R114, R119; log 38). -/
structure Screen where
  hits : Vector Nat 16
  leakCount : Nat
  handed : List Latch
  deriving DecidableEq, Repr

/-- A CMD or URG frame to a cell (R176). `load` is the phase load, present where the frame carries one. -/
structure CellFrame where
  urgent : Bool
  port : Port
  tag : Byte
  command : Command
  order : Order
  pair : Pair
  trim : Int
  load : Option (Nat × Bool)
  deriving DecidableEq, Repr

/-- One cell link port (R124, R137). `moments` is the model's own counter: how often the frames sent have been taken
off the transmit list (log 7). -/
structure Link where
  state : LinkState
  missCount : Nat
  linkingCount : Nat
  tagSent : Option Byte
  accepted : Bool
  transmit : List CellFrame
  forceOnce : Bool
  forceContinuous : Bool
  malformed : Nat
  wrongPort : Nat
  stale : Nat
  repeated : Nat
  framesAccepted : Half
  lastCommand : Option Command
  moments : Nat
  deriving DecidableEq, Repr

/-- The fields of a digest (R146). `newestLog` is absent while the log is empty. -/
structure Digest where
  period : Period
  mode : Mode
  stage : Stage
  restartNumber : Half
  nestDepth : Nat
  gapCount : Nat
  lengths : Tri Nat
  holdCount : Nat
  flags : BitVec 24
  newestLog : Option Half
  buffered : Nat
  deriving DecidableEq, Repr

/-- The result of a request (R152, R176). -/
inductive Result where
  | done | refusedMode | refusedState | badTable | badIndex | badLength | badValue
  deriving DecidableEq, Repr

/-- A reply (R152). -/
structure Reply where
  tag : Byte
  code : Byte
  result : Result
  detail : Byte
  payload : List Byte
  deriving DecidableEq, Repr

/-- A frame on the upstream list (R148). A reply names the request buffer it answers. -/
inductive UpFrame where
  | digest (d : Digest)
  | reply (buffer : Fin 2) (r : Reply)
  deriving DecidableEq, Repr

/-- The Control Link Interface's state (R149). `flags` is the event flag set of the current period, `reported` the
reported flag set. -/
structure Control where
  lastSeq : Option Byte
  current : Option (Tri Half)
  motion : Motion
  holdCount : Nat
  flags : BitVec 24
  reported : BitVec 24
  upstream : List UpFrame
  deriving DecidableEq, Repr

/-- A request buffer (R151). A held request carries its arrival order. -/
inductive Buffer where
  | free
  | waiting (request : MgtFrame) (arrival : Nat)
  | answered (request : MgtFrame) (arrival : Nat)
  deriving DecidableEq, Repr

/-- One mark for each table group (R155). -/
structure GroupMarks where
  screen : Bool
  rebalance : Bool
  policy : Bool
  deriving DecidableEq, Repr

/-- The Management Agent's state (R151, R156, R160). `arrivals` is the model's own counter, from which the arrival
order of a request is taken. -/
structure Agent where
  buf0 : Buffer
  buf1 : Buffer
  arrivals : Nat
  periodMarks : GroupMarks
  recoveryMarks : GroupMarks
  warmPending : Bool
  deriving DecidableEq, Repr

/-- The configuration record (R157). -/
structure Settings where
  nNom : Nat
  p : Nat
  bases : Tri Nat
  j : Nat
  aTol : Nat
  alignLimit : Nat
  missLimit : Nat
  refHoldLimit : Nat
  inhibitHold : Nat
  confirmLimit : Nat
  settle : Nat
  blindWait : Nat
  clipLimit : Nat
  leakInterval : Nat
  spareVdcMin : Nat
  deriving DecidableEq, Repr

/-- A fault log record (R173). `word` is the status word with the index of the deciding screen entry. -/
structure LogRecord where
  sequence : Half
  stamp : Period
  port : Option Port
  kind : LogKind
  word : Option (Half × Fin 16)
  mode : Mode
  stage : Stage
  restartNumber : Half
  nestDepth : Nat
  deficits : Option (Tri Nat)
  deriving DecidableEq, Repr

/-- The Fault Log (R172). `records` holds the oldest record first. -/
structure FaultLog where
  next : Half
  records : List LogRecord
  deriving DecidableEq, Repr

/-- The model's own record of the period start under way (logs 1, 2): whether one is under way, the steps and the
ports' link judgements already taken at it, which ports had a status accepted in the period just ended, that period's
stage, whether the settle count has just been reported complete, whether INHIBIT was entered at this period start,
the port whose failed entry is not reconciled before the next period start (R63, R64; log 31), and whether spare
selection for an abandoned cell is due (R64). -/
structure PeriodProgress where
  underWay : Bool
  taken : List PsStep
  judged : List Port
  answered : Vector Bool 24
  stageEnded : Stage
  settleDone : Bool
  inhibitEntered : Bool
  failed : Option Port
  selectionDue : Bool
  deriving DecidableEq, Repr

/-- The state of the part and the queue of waiting commands. -/
structure State where
  lines : Lines
  mode : Mode
  roster : Vector RosterEntry 24
  policyStaged : Vector PolicyEntry 7
  policyActive : Vector PolicyEntry 7
  rsq : Sequencer
  bau : Bypass
  rebalStaged : Vector RebalEntry 64
  rebalActive : Vector RebalEntry 64
  rtu : Transform
  ctu : Carrier
  screenStaged : Vector ScreenEntry 16
  screenActive : Vector ScreenEntry 16
  ssc : Screen
  links : Vector Link 24
  cli : Control
  mga : Agent
  settings : Settings
  log : FaultLog
  ps : PeriodProgress
  pending : List Instr
  deriving DecidableEq, Repr

/-- Nothing the spec describes stops the part: a trip is a change of mode with a record (R166), a bad frame is a count
or a flag (R129, R139), a refused request is a reply (R152). So there is no fault, and none is raised. -/
inductive Fault where
  deriving DecidableEq, Repr

/-- The reasons for which a command could be refused by the model. -/
inductive Refusal where
  /-- Raised by an arm of `exec` for a row that has no meaning yet; safe. No arm of this model raises it. -/
  | notModelled (mnemonic : String)
  deriving DecidableEq, Repr

/-- A roster entry after a pin reset (R3). -/
def RosterEntry.afterPin : RosterEntry :=
  { installed := false, role := .absent, position := none, rank := 0, linkDelay := 0, bypassOrder := .closed,
    contact := .unknown, lastStatus := 0, vdc := 0, noteCount := 0, clipBucket := 0, latchCount := 0,
    ineligible := false, insertionTarget := none, deferred := false, blind := false }

/-- A policy entry after a pin reset (R32). -/
def PolicyEntry.afterPin : PolicyEntry :=
  { restartAllowed := false, spareAllowed := false, blindAllowed := false, gapBudget := 1, rampPeriods := 1,
    maxNest := 1 }

/-- The Restart Sequencer after a pin reset (R22). -/
def Sequencer.afterPin : Sequencer :=
  { stage := .normal, nest := [], gapCount := 0, restartNumber := 0, rampGain := 1024, resumeIndex := 0,
    inhibitCount := 0, grantPending := false, resumeLength := 1 }

/-- The Bypass Actuation Unit after a pin reset (R70). -/
def Bypass.afterPin : Bypass :=
  { supply := ⟨false, false, false⟩, queue := [], retry := Vector.replicate 24 false,
    blindStart := Vector.replicate 24 none, settleCount := 0 }

/-- A rebalance entry after a pin reset (R73). -/
def RebalEntry.afterPin : RebalEntry := { valid := false, coef := Tri.all (Tri.all 0), ceiling := 0 }

/-- The Reference Transform Unit after a pin reset: the pairs are the neutral pair of the reset P (R77, R86, R87). -/
def Transform.afterPin : Transform :=
  { held := Tri.all 0, fresh := false, entryIndex := none, gain := 1024, y := Tri.all 0, yRamped := Tri.all 0,
    m := Tri.all 0, pairs := Tri.all ⟨500, 500⟩, xformClamps := Tri.all 0, cellClamps := Tri.all 0 }

/-- The Carrier Timing Unit's state for a port after a pin reset (R108). -/
def CarrierPort.afterPin : CarrierPort :=
  { target := none, lastError := none, capture := none, sent := .nothing, passCount := 0, aligned := false }

/-- The configuration record after a pin reset (R157). -/
def Settings.afterPin : Settings :=
  { nNom := 6, p := 1000, bases := ⟨0, 666, 1333⟩, j := 4, aTol := 8, alignLimit := 16, missLimit := 3,
    refHoldLimit := 4, inhibitHold := 3, confirmLimit := 40, settle := 6, blindWait := 30, clipLimit := 4,
    leakInterval := 64, spareVdcMin := 0 }

/-- The Carrier Timing Unit after a pin reset (R93, R94, R108). -/
def Carrier.afterPin : Carrier :=
  { position := 0, pInForce := 1000, bases := ⟨0, 666, 1333⟩, counter := 0,
    ports := Vector.replicate 24 CarrierPort.afterPin, windowStart := none }

/-- A screen entry after a pin reset (R111). -/
def ScreenEntry.afterPin : ScreenEntry := { valid := false, mask := 0, pattern := 0, action := .pass }

/-- The Status Screen's counts after a pin reset (R111, R118). -/
def Screen.afterPin : Screen := { hits := Vector.replicate 16 0, leakCount := 0, handed := [] }

/-- A cell link port after a pin reset (R124, R137). No period frame has been composed since, so the command of the last
one is none (DEDUCED, log 42). -/
def Link.afterPin : Link :=
  { state := .idle, missCount := 0, linkingCount := 0, tagSent := none, accepted := false, transmit := [],
    forceOnce := false, forceContinuous := false, malformed := 0, wrongPort := 0, stale := 0, repeated := 0,
    framesAccepted := 0, lastCommand := none, moments := 0 }

/-- The Control Link Interface after a pin reset: the hold count stands at ref_hold_limit (R149). -/
def Control.afterPin : Control :=
  { lastSeq := none, current := none, motion := .braked, holdCount := 4, flags := 0, reported := 0, upstream := [] }

/-- The Management Agent after a pin reset (R151, R156, R160). -/
def Agent.afterPin : Agent :=
  { buf0 := .free, buf1 := .free, arrivals := 0, periodMarks := ⟨false, false, false⟩,
    recoveryMarks := ⟨false, false, false⟩, warmPending := false }

/-- No period start under way. -/
def PeriodProgress.none : PeriodProgress :=
  { underWay := false, taken := [], judged := [], answered := Vector.replicate 24 false, stageEnded := .normal,
    settleDone := false, inhibitEntered := false, failed := Option.none, selectionDue := false }

/-- Every block at its pin reset values, with the lines at the levels given (R170). DESIGN CHOICE (log 6): the mode
reads STANDBY while RESET_N is low, whose line levels are those of R169. -/
def State.atPinReset (lines : Lines) (pending : List Instr) : State :=
  { lines := lines, mode := .standby, roster := Vector.replicate 24 RosterEntry.afterPin,
    policyStaged := Vector.replicate 7 PolicyEntry.afterPin, policyActive := Vector.replicate 7 PolicyEntry.afterPin,
    rsq := Sequencer.afterPin, bau := Bypass.afterPin, rebalStaged := Vector.replicate 64 RebalEntry.afterPin,
    rebalActive := Vector.replicate 64 RebalEntry.afterPin, rtu := Transform.afterPin, ctu := Carrier.afterPin,
    screenStaged := Vector.replicate 16 ScreenEntry.afterPin, screenActive := Vector.replicate 16 ScreenEntry.afterPin,
    ssc := Screen.afterPin, links := Vector.replicate 24 Link.afterPin, cli := Control.afterPin,
    mga := Agent.afterPin, settings := Settings.afterPin, log := { next := 0, records := [] },
    ps := PeriodProgress.none, pending := pending }

/-- The part right after a pin reset: RESET_N has risen with SAFETY_STOP_N high, so the mode is STANDBY (R170).
DESIGN CHOICE (log 5): the spec gives no level for the input lines; SAFETY_STOP_N is high and BYPASS_SUPPLY_OK low. -/
def State.reset : State :=
  State.atPinReset { resetN := true, safetyStopN := true, bypassSupplyOk := false } []

end Sys2Proof.Machine
end

