-- ==== Sys2Proof/Machine/Flags.lean ====
section
/-! DEFINITION. The event flags as bits of the 24-bit field of the digest (R147, R176). -/

namespace Sys2Proof.Machine

/-- The bit of an event flag in the 24-bit field of the digest: the order of the table of R147 (R176). -/
def Flag.bitNumber : Flag → Nat
  | .latchAccepted => 0 | .clip => 1 | .note => 2 | .tripCause => 3 | .xformClamp => 4 | .cellClamp => 5
  | .refOverrun => 6 | .refDuplicate => 7 | .refBadCrc => 8 | .motionInvalid => 9 | .grantStale => 10
  | .commitApplied => 11 | .commitDropped => 12 | .reqDropped => 13 | .linkLost => 14 | .bypassFail => 15
  | .spareOpenFail => 16 | .alignFail => 17 | .logWritten => 18

/-- Whether a flag stands in a flag set. -/
def hasFlag (set : BitVec 24) (f : Flag) : Bool := set.getLsbD f.bitNumber

/-- A flag set with one flag more; raising a flag again changes nothing (R147). -/
def withFlag (set : BitVec 24) (f : Flag) : BitVec 24 := set ||| BitVec.twoPow 24 f.bitNumber

end Sys2Proof.Machine
end

