-- ==== Sys2Proof/Machine/Ops.lean ====
section
/-! DEFINITION. The shared operations over State: reading and updating one port's records, the blocks' records, the
fault log, and the part's integer arithmetic. -/

namespace Sys2Proof.Machine

/-- All ports, ascending. -/
def allPorts : List Port := List.finRange 24

/-- The phase a port serves, fixed by its number (R1). -/
def phaseOf (p : Port) : Phase := if p.val < 8 then .a else if p.val < 16 then .b else .c

/-- The ports of a phase, ascending. -/
def phasePorts (x : Phase) : List Port := allPorts.filter (fun p => phaseOf p = x)

/-- round(n/d) of the Conventions: the nearest integer, halves away from zero. -/
def roundDiv (n : Int) (d : Nat) : Int := n.sign * (((2 * n.natAbs + d) / (2 * d) : Nat) : Int)

/-- The clamp to −l..+l of the Conventions. -/
def clampTo (l : Int) (v : Int) : Int := if v < -l then -l else if l < v then l else v

/-- A counter that saturates at `top`. -/
def saturate (top n : Nat) : Nat := if n < top then n + 1 else n

namespace State

/-- The roster entry of a port. -/
def entry (s : State) (p : Port) : RosterEntry := s.roster[p.val]

/-- One roster entry changed. -/
def updEntry (s : State) (p : Port) (f : RosterEntry → RosterEntry) : State :=
  { s with roster := s.roster.set p.val (f (s.entry p)) }

/-- Every roster entry changed. -/
def mapEntries (s : State) (f : Port → RosterEntry → RosterEntry) : State :=
  { s with roster := Vector.ofFn (fun p => f p (s.entry p)) }

/-- The link state record of a port. -/
def link (s : State) (p : Port) : Link := s.links[p.val]

/-- One port's link record changed. -/
def updLink (s : State) (p : Port) (f : Link → Link) : State :=
  { s with links := s.links.set p.val (f (s.link p)) }

/-- Every port's link record changed. -/
def mapLinks (s : State) (f : Port → Link → Link) : State :=
  { s with links := Vector.ofFn (fun p => f p (s.link p)) }

/-- The carrier record of a port. -/
def cport (s : State) (p : Port) : CarrierPort := s.ctu.ports[p.val]

/-- The Carrier Timing Unit's state changed. -/
def updCtu (s : State) (f : Carrier → Carrier) : State := { s with ctu := f s.ctu }

/-- One port's carrier record changed. -/
def updCport (s : State) (p : Port) (f : CarrierPort → CarrierPort) : State :=
  s.updCtu (fun c => { c with ports := c.ports.set p.val (f (s.cport p)) })

/-- Every port's carrier record changed. -/
def mapCports (s : State) (f : Port → CarrierPort → CarrierPort) : State :=
  s.updCtu (fun c => { c with ports := Vector.ofFn (fun p => f p (s.cport p)) })

/-- The Restart Sequencer's state changed. -/
def updRsq (s : State) (f : Sequencer → Sequencer) : State := { s with rsq := f s.rsq }

/-- The Bypass Actuation Unit's state changed. -/
def updBau (s : State) (f : Bypass → Bypass) : State := { s with bau := f s.bau }

/-- The Reference Transform Unit's state changed. -/
def updRtu (s : State) (f : Transform → Transform) : State := { s with rtu := f s.rtu }

/-- The Status Screen's counts changed. -/
def updSsc (s : State) (f : Screen → Screen) : State := { s with ssc := f s.ssc }

/-- The Control Link Interface's state changed. -/
def updCli (s : State) (f : Control → Control) : State := { s with cli := f s.cli }

/-- The Management Agent's state changed. -/
def updMga (s : State) (f : Agent → Agent) : State := { s with mga := f s.mga }

/-- The record of the period start under way changed. -/
def updPs (s : State) (f : PeriodProgress → PeriodProgress) : State := { s with ps := f s.ps }

/-- The mode set. -/
def setMode (s : State) (m : Mode) : State := { s with mode := m }

/-- The input lines set. -/
def setLines (s : State) (l : Lines) : State := { s with lines := l }

/-- The fault log set. -/
def setLog (s : State) (l : FaultLog) : State := { s with log := l }

/-- The configuration record set. -/
def setSettings (s : State) (c : Settings) : State := { s with settings := c }

/-- The nest depth (R34). -/
def nestDepth (s : State) : Nat := s.rsq.nest.length

/-- The period tag: the low 8 bits of the period counter (R94). -/
def tag (s : State) : Byte := s.ctu.counter.setWidth 8

/-- The policy of the episode under way, held in the bottom entry of the nest list (R33, R34). -/
def episodePolicy (s : State) : Option PolicyEntry := s.rsq.nest.head?.bind (fun c => c.policy)

/-- BRAKE_DEMAND is asserted exactly when the mode is not RUN, and while RESET_N is low (R164, R169). -/
def brakeDemand (s : State) : Bool := s.mode != .run || !s.lines.resetN

/-- TRIP is asserted in mode TRIPPED, and deasserted while RESET_N is low (R164, R169). -/
def tripLine (s : State) : Bool := s.mode == .tripped && s.lines.resetN

/-- The stages in which a torque gap runs (R46, R49). -/
def inGapStage (s : State) : Bool :=
  match s.rsq.stage with
  | .inhibit | .isolate | .remap | .align | .awaitGrant => true
  | .normal | .resume => false

/-- TORQUE_GAP: mode RUN, nest depth at least 1, and one of the five gap stages; deasserted while RESET_N is low
(R49, R169). -/
def torqueGap (s : State) : Bool :=
  s.mode == .run && decide (1 ≤ s.nestDepth) && s.inGapStage && s.lines.resetN

end State

/-- A flag raised into the event flag set of the current period (R147). -/
def State.raise (s : State) (f : Flag) : State :=
  s.updCli (fun c => { c with flags := withFlag c.flags f })

/-- What a writer hands to the Fault Log; the log stamps sequence and period (R172, R173). -/
structure LogEntry where
  kind : LogKind
  port : Option Port := none
  word : Option (Half × Fin 16) := none
  mode : Mode
  stage : Stage
  restartNumber : Half
  nestDepth : Nat
  deficits : Option (Tri Nat) := none
  deriving DecidableEq, Repr

/-- The record the Fault Log stores for what it was handed: the next sequence number and the present period (R172). -/
def State.recordOf (s : State) (e : LogEntry) : LogRecord :=
  { sequence := s.log.next, stamp := s.ctu.counter, port := e.port, kind := e.kind, word := e.word, mode := e.mode,
    stage := e.stage, restartNumber := e.restartNumber, nestDepth := e.nestDepth, deficits := e.deficits }

/-- The ring keeps the sixteen newest records (R172). -/
def keepSixteen (l : List LogRecord) : List LogRecord := l.drop (l.length - 16)

/-- A record handed to the Fault Log: it is stamped, stored in the ring of sixteen, and LOG_WRITTEN is raised (R172). -/
def State.writeLog (s : State) (e : LogEntry) : State :=
  (s.setLog { next := s.log.next + 1, records := keepSixteen (s.log.records ++ [s.recordOf e]) }).raise .logWritten

/-- A log entry with mode, stage, restart number and nest depth as they stand. -/
def State.entryNow (s : State) (kind : LogKind) (port : Option Port) : LogEntry :=
  { kind := kind, port := port, mode := s.mode, stage := s.rsq.stage, restartNumber := s.rsq.restartNumber,
    nestDepth := s.nestDepth }

end Sys2Proof.Machine
end

