-- ==== Sys2Proof/Machine/Roster.lean ====
section
/-! DEFINITION. The Cell Roster: standing orders, phase strings, deficits, confirmed closures and openings, spare
selection, the rebuild at REMAP, compaction and renumbering (chapter 1). -/

namespace Sys2Proof.Machine

/-- The standing bypass order of a role and insertion_target; none for ABSENT (R2). -/
def RosterEntry.standing (e : RosterEntry) : Option Order :=
  match e.role with
  | .absent => none
  | .active => some .opened
  | .spare => some (if e.insertionTarget.isSome then .opened else .closed)
  | .isolating | .bypassed | .failed => some .closed

/-- Whether a cell stands in its phase string: ACTIVE or ISOLATING (R7). -/
def RosterEntry.inString (e : RosterEntry) : Bool :=
  match e.role with
  | .active | .isolating => true
  | .absent | .spare | .bypassed | .failed => false

/-- The contact state an order calls for. -/
def Order.contact : Order → Contact
  | .opened => .opened
  | .closed => .closed

/-- Ports sorted by a key, ascending; a port number below 24 breaks ties where the key is `24 * k + port`. -/
def sortPorts (key : Port → Nat) (l : List Port) : List Port := l.insertionSort (fun p q => key p ≤ key q)

namespace State

/-- The order of a string: by position, then by port (R7). -/
def stringKey (s : State) (p : Port) : Nat := 24 * ((s.entry p).position.getD 8) + p.val

/-- The phase string: the phase's ACTIVE and ISOLATING cells by ascending position, ties by port (R7). -/
def phaseString (s : State) (x : Phase) : List Port :=
  sortPorts s.stringKey ((phasePorts x).filter (fun p => (s.entry p).inString))

/-- N_x, the length of a phase string (R7). -/
def stringLength (s : State) (x : Phase) : Nat := (s.phaseString x).length

/-- The string cells of the three phases, ascending by port. -/
def stringCells (s : State) : List Port := allPorts.filter (fun p => (s.entry p).inString)

/-- The number of ACTIVE cells of a phase. -/
def activeCount (s : State) (x : Phase) : Nat := (phasePorts x).countP (fun p => (s.entry p).role = .active)

/-- The deficit of a phase: N_nom less the number of its ACTIVE cells (R8). -/
def deficit (s : State) (x : Phase) : Nat := s.settings.nNom - s.activeCount x

/-- The deficit tuple (R8). -/
def deficits (s : State) : Tri Nat := Tri.of s.deficit

end State

/-- The rebalance index of a deficit tuple: d_A·16 + d_B·4 + d_C where every deficit is 3 or less, none otherwise
(R8). -/
def rebalIndex (d : Tri Nat) : Option (Fin 64) :=
  if h : d.a ≤ 3 ∧ d.b ≤ 3 ∧ d.c ≤ 3 then some ⟨d.a * 16 + d.b * 4 + d.c, by omega⟩ else none

/-- Whether a rebalance entry is valid: its mark is yes and each deficit its index encodes is below N_nom (R74). -/
def rebalValid (nNom : Nat) (i : Fin 64) (e : RebalEntry) : Bool :=
  e.valid && decide (i.val / 16 < nNom ∧ i.val / 4 % 4 < nNom ∧ i.val % 4 < nNom)

/-- The lookup of a deficit tuple in a bank: the index of a valid entry, or none (R26, R74). -/
def rebalLookup (nNom : Nat) (bank : Vector RebalEntry 64) (d : Tri Nat) : Option (Fin 64) :=
  (rebalIndex d).filter (fun i => rebalValid nNom i bank[i.val])

namespace State

/-- Whether the actuation queue holds an entry for a port, waiting or in flight. -/
def queued (s : State) (p : Port) : Bool := s.bau.queue.any (fun a => a.port = p)

/-- Closure confirmed (R13). -/
def closureConfirmed (s : State) (p : Port) : Bool :=
  (s.entry p).bypassOrder == .closed && (s.entry p).contact == .closed && !s.queued p

/-- Closure confirmed or blind (R13). -/
def closureOk (s : State) (p : Port) : Bool := s.closureConfirmed p || (s.entry p).blind

/-- Opening confirmed, for a SPARE with an insertion_target (R13). -/
def openingConfirmed (s : State) (p : Port) : Bool :=
  (s.entry p).role == .spare && (s.entry p).insertionTarget.isSome && (s.entry p).bypassOrder == .opened
    && (s.entry p).contact == .opened && !s.queued p

/-- Whether some SPARE names a port as its insertion_target. -/
def spareFor? (s : State) (p : Port) : Option Port :=
  allPorts.find? (fun q => (s.entry q).role = .spare ∧ (s.entry q).insertionTarget = some p)

/-- Whether a spare is eligible for selection (R14). -/
def eligible (s : State) (p : Port) : Bool :=
  (s.entry p).role == .spare && (s.link p).state == .up && !(s.entry p).ineligible
    && (s.entry p).insertionTarget.isNone && decide (s.settings.spareVdcMin ≤ (s.entry p).vdc)

/-- The spare selection would give to an ISOLATING cell: the eligible spare of its phase with the lowest rank, ties
to the lower port (R15). -/
def bestSpare? (s : State) (p : Port) : Option Port :=
  (sortPorts (fun q => 24 * (s.entry q).rank + q.val) ((phasePorts (phaseOf p)).filter s.eligible)).head?

/-- One ISOLATING cell served by spare selection (R15). -/
def assignSpare (s : State) (p : Port) : State :=
  match s.bestSpare? p with
  | some q => s.updEntry q (fun e => { e with insertionTarget := some p })
  | none => s

/-- The ISOLATING cells of a phase that no spare names, by ascending position (R15). -/
def unserved (s : State) (x : Phase) : List Port :=
  (s.phaseString x).filter (fun p => (s.entry p).role = .isolating ∧ (s.spareFor? p).isNone)

/-- Whether selection may act: mode RUN and an episode policy with spare_allowed (R15). -/
def spareAllowed (s : State) : Bool := s.mode == .run && s.episodePolicy.any (fun p => p.spareAllowed)

/-- Spare selection (R15). -/
def selectSpares (s : State) : State :=
  if s.spareAllowed then (Phase.list.flatMap s.unserved).foldl assignSpare s else s

/-- Whether the stage is one in which the loss of a selected spare causes a selection: INHIBIT or ISOLATE (R15). -/
def selectionStage (s : State) : Bool :=
  match s.rsq.stage with
  | .inhibit | .isolate => true
  | .normal | .remap | .align | .awaitGrant | .resume => false

/-- Spare selection after a spare has lost its insertion_target: in stages INHIBIT and ISOLATE only (R15). -/
def reselect (s : State) : State :=
  if s.selectionStage then s.selectSpares else s

/-- The insertion_target of a spare removed (R16). -/
def deselect (s : State) (p : Port) : State := s.updEntry p (fun e => { e with insertionTarget := none })

/-- The entry a port has once its string is renumbered: its place in the string, counted from 0 (R18). -/
def renumbered (s : State) (p : Port) (e : RosterEntry) : RosterEntry :=
  if e.inString then { e with position := some ((s.phaseString (phaseOf p)).idxOf p) } else e

/-- Renumbering of one phase string: its cells get the positions 0..N−1 in the string's order (R18). -/
def renumberPhase (s : State) (x : Phase) : State :=
  s.mapEntries (fun p e => if phaseOf p = x then s.renumbered p e else e)

/-- Renumbering of every phase string (R18). -/
def renumber (s : State) : State := s.mapEntries s.renumbered

/-- Steps 1 to 3 of the rebuild for one entry: a spare whose opening is confirmed takes the position of the cell it
replaces and becomes ACTIVE; every ISOLATING cell becomes BYPASSED; another selected spare loses its target (R17). -/
def rebuiltEntry (s : State) (p : Port) (e : RosterEntry) : RosterEntry :=
  match e.role, e.insertionTarget with
  | .isolating, _ => { e with role := .bypassed, position := none }
  | .spare, some q =>
    if s.openingConfirmed p && (s.entry q).role == .isolating then
      { e with role := .active, position := (s.entry q).position, insertionTarget := none }
    else { e with insertionTarget := none }
  | _, _ => e

/-- The rebuild at REMAP completion (R17). The blind wait records of the cells that leave ISOLATING are discarded
(R65). -/
def rebuild (s : State) : State :=
  ((s.mapEntries s.rebuiltEntry).renumber).updBau (fun b => { b with blindStart := Vector.replicate 24 none })

/-- Steps 1 to 3 of compaction for one entry (R18). -/
def compactedEntry (s : State) (p : Port) (e : RosterEntry) : RosterEntry :=
  match e.role with
  | .active => if e.deferred then { e with role := .failed, position := none, deferred := false } else e
  | .isolating =>
    { e with role := if s.closureOk p then .bypassed else .failed, position := none }
  | .spare => { e with insertionTarget := none }
  | .absent | .bypassed | .failed => e

/-- Compaction at departure from RUN (R18). -/
def compact (s : State) : State := (s.mapEntries s.compactedEntry).renumber

end State

end Sys2Proof.Machine
end

