-- ==== Sys2Proof/Machine/Departure.lean ====
section
/-! DEFINITION. The command frames the ports send between period starts, the departure from RUN and trip requests
(R79, R134, R135, R166, R167). -/

namespace Sys2Proof.Machine

/-- The neutral pair: the pair of index 0 at a half-period (R79). -/
def neutralPair (p : Nat) : Pair :=
  { cL := (p * 32768 + 32768) / 65536, cR := p - (p * 32768 + 32768) / 65536 }

/-- Whether a port is sent frames: LINKING, UP or MISSING (R124). -/
def LinkState.sends : LinkState → Bool
  | .linking | .up | .missing => true
  | .idle | .lost => false

namespace State

/-- An urgent frame: the port, the tag of the current period, its present bypass order, the neutral pair, trim 0 and
no load (R134, R135). -/
def urgentFrame (s : State) (p : Port) (c : Command) : CellFrame :=
  { urgent := true, port := p, tag := s.tag, command := c, order := (s.entry p).bypassOrder,
    pair := neutralPair s.ctu.pInForce, trim := 0, load := none }

/-- An urgent ZERO to one port, at the tail of its transmit list (R135, R136). -/
def urgentZero (s : State) (p : Port) : State :=
  s.updLink p (fun l => { l with transmit := l.transmit ++ [s.urgentFrame p .zero] })

/-- An urgent BLOCK to every port in LINKING, UP or MISSING (R134). -/
def urgentBlock (s : State) : State :=
  s.mapLinks (fun p l =>
    if l.state.sends then { l with transmit := l.transmit ++ [s.urgentFrame p .block] } else l)

/-- The alignment window closed (R107). -/
def closeWindow (s : State) : State := s.updCtu (fun c => { c with windowStart := none })

/-- The Restart Sequencer's part of a departure from RUN: the gap count, the restart number and the ramp length R are
kept (R51). -/
def sequencerRest (s : State) : State :=
  s.updRsq (fun r => { r with stage := .normal, nest := [], grantPending := false, resumeIndex := 0,
                              inhibitCount := 0, rampGain := 1024 })

/-- The Bypass Actuation Unit's part of a departure from RUN: waiting OPEN entries are removed, the settle count is 0
and the blind wait records are discarded (R69). -/
def pruneQueue (s : State) : State :=
  (s.updBau (fun b => { b with queue := b.queue.filter (fun a => a.dir == .closed || a.issued.isSome),
                               settleCount := 0, blindStart := Vector.replicate 24 none })).updPs
    (fun p => { p with settleDone := false })

/-- The departure from RUN to another mode: every block does its part (R167). Compaction sees the queue as it stands
before the waiting OPEN entries leave it (DESIGN CHOICE, log 41). -/
def departRun (s : State) (m : Mode) : State :=
  ((((s.urgentBlock.compact).pruneQueue).sequencerRest).closeWindow).setMode m

end State

/-- A trip request: the cause, and the port, status word and deficit tuple where the cause has them (R50, R166). -/
structure TripRequest where
  cause : LogKind
  port : Option Port := none
  word : Option (Half × Fin 16) := none
  deficits : Option (Tri Nat) := none
  deriving DecidableEq, Repr

/-- A trip request taken by the Mode Controller: in RUN its record is written and the part departs to TRIPPED; in any
other mode it is discarded (R166). -/
def State.requestTrip (s : State) (t : TripRequest) : State :=
  if s.mode = .run then
    (s.writeLog { s.entryNow t.cause t.port with word := t.word, deficits := t.deficits }).departRun .tripped
  else s

end Sys2Proof.Machine
end

