-- ==== Sys2Proof/Machine/Latch.lean ====
section
/-! DEFINITION. Latch acceptance: by the Restart Sequencer in RUN (R36 to R44), by the Status Screen outside it
(R120). -/

namespace Sys2Proof.Machine

/-- The index of a motion state in the policy table (section 2.3). -/
def Motion.index : Motion → Fin 7
  | .braked => 0 | .proving => 1 | .accelerating => 2 | .running => 3 | .decelerating => 4 | .creeping => 5
  | .levelling => 6

namespace State

/-- A cell becomes ISOLATING: it keeps its position (R10), and its blind wait starts in the present period (R65). -/
def makeIsolating (s : State) (p : Port) : State :=
  (s.updEntry p (fun e => { e with role := .isolating, deferred := false })).updBau
    (fun b => { b with blindStart := b.blindStart.set p.val (some s.ctu.counter) })

/-- Entry to INHIBIT: the inhibit count is 0, alignment is abandoned, and every linked port is sent an urgent BLOCK
(R24, R107). While a period start is under way the entry is noted, since that period start is not counted (R24). -/
def enterInhibit (s : State) : State :=
  (((s.updRsq (fun r => { r with stage := .inhibit, inhibitCount := 0 })).closeWindow).updPs
    (fun p => { p with inhibitEntered := p.underWay })).urgentBlock

/-- A context pushed on the nest list: the restart number counts, the grant pending is cleared, the ramp is at rest,
and INHIBIT is entered (R34, R35, R37, R39 to R41, R48). `gap` is the gap count after the push. -/
def push (s : State) (interrupted : Stage) (gap : Nat) (policy : Option PolicyEntry) : State :=
  (s.updRsq (fun r =>
    { r with
      restartNumber := r.restartNumber + 1
      gapCount := gap
      grantPending := false
      resumeIndex := 0
      rampGain := 1024
      nest := r.nest ++
        [{ restartNumber := r.restartNumber + 1, interrupted := interrupted, deficits := s.deficits,
           motion := s.cli.motion, gapCount := gap, policy := policy }] })).enterInhibit

/-- The active policy entry for the motion state held (R33). -/
def activePolicy (s : State) : PolicyEntry := s.policyActive[(s.cli.motion.index).val]

/-- The policy that governs the episode under way (R33). -/
def governingPolicy (s : State) : PolicyEntry := s.episodePolicy.getD s.activePolicy

/-- Whether a cell that has just become ISOLATING trips the part: its port is LOST and the policy has blind_allowed
at no (R44). -/
def blindForbidden (s : State) (p : Port) (policy : PolicyEntry) : Bool :=
  (s.link p).state == .lost && !policy.blindAllowed

/-- A latch for an ACTIVE cell with the nest list empty: the episode opens, or the part trips (R37, R44). Where both
causes arise the restart_allowed test comes first (R32, R50; log 11). -/
def openEpisode (s : State) (p : Port) : State × Option TripRequest :=
  if !s.activePolicy.restartAllowed then (s.makeIsolating p, some { cause := .restartForbidden, port := some p })
  else if s.blindForbidden p s.activePolicy then
    (s.makeIsolating p, some { cause := .linkLostNoBlind, port := some p })
  else ((s.makeIsolating p).push s.rsq.stage 0 (some s.activePolicy), none)

/-- The settle count stopped by a join in ISOLATE (R38, R68). -/
def stopSettle (s : State) : State :=
  match s.rsq.stage with
  | .isolate => (s.updBau (fun b => { b with settleCount := 0 })).updPs (fun p => { p with settleDone := false })
  | .normal | .inhibit | .remap | .align | .awaitGrant | .resume => s

/-- A latch for an ACTIVE cell in INHIBIT or ISOLATE joins the recovery (R38, R44). -/
def joinRecovery (s : State) (p : Port) : State × Option TripRequest :=
  if s.blindForbidden p s.governingPolicy then
    (s.makeIsolating p, some { cause := .linkLostNoBlind, port := some p })
  else ((s.makeIsolating p).stopSettle.selectSpares, none)

/-- A latch for an ACTIVE cell in REMAP is deferred (R39). -/
def deferLatch (s : State) (p : Port) : State := s.updEntry p (fun e => { e with deferred := true })

/-- A latch for an ACTIVE cell that sends the recovery back: a context is pushed, or the part trips (R40 to R42, R44).
`gap` is the gap count after the push. -/
def pushBack (s : State) (p : Port) (gap : Nat) : State × Option TripRequest :=
  if s.blindForbidden p s.governingPolicy then
    (s.makeIsolating p, some { cause := .linkLostNoBlind, port := some p })
  else if s.governingPolicy.maxNest < s.nestDepth + 1 then
    (s.makeIsolating p, some { cause := .nestLimit, port := some p })
  else ((s.makeIsolating p).push s.rsq.stage gap none, none)

/-- The stage rules for a latch of an ACTIVE cell that is not deferred (R36 to R42). -/
def latchActive (s : State) (p : Port) : State × Option TripRequest :=
  if s.rsq.nest = [] then s.openEpisode p
  else
    match s.rsq.stage with
    | .inhibit | .isolate => s.joinRecovery p
    | .remap => (s.deferLatch p, none)
    | .normal | .align | .awaitGrant => s.pushBack p s.rsq.gapCount
    | .resume => s.pushBack p 0

/-- A latch for a SPARE in RUN retires it; a spare that was selected leaves its cell to selection again (R11, R43). -/
def retireSpare (s : State) (p : Port) : State :=
  let t := s.updEntry p (fun e => { e with role := .bypassed, insertionTarget := none })
  if (s.entry p).insertionTarget.isSome then t.reselect else t

/-- The effect of a latch in RUN by the role of its cell, with the trip it leads to (R36). -/
def latchEffect (s : State) (p : Port) : State × Option TripRequest :=
  match (s.entry p).role with
  | .active => if (s.entry p).deferred then (s, none) else s.latchActive p
  | .spare => (s.retireSpare p, none)
  | .isolating | .bypassed | .failed | .absent => (s, none)

/-- A latch counted, flagged and logged: the record shows the mode, stage and nest depth given, and the restart number
as it stands (R36, R120). -/
def countLatch (s : State) (l : Latch) (m : Mode) (st : Stage) (depth : Nat) : State :=
  ((s.updEntry l.port (fun e => { e with latchCount := saturate 255 e.latchCount })).raise .latchAccepted).writeLog
    { kind := l.kind, port := some l.port, word := l.word, mode := m, stage := st,
      restartNumber := s.rsq.restartNumber, nestDepth := depth }

/-- A latch taken by the Restart Sequencer in RUN. A latch on an ISOLATING cell has no effect at all; any other is
dealt with, counted and logged, and then trips the part where it does (R36). -/
def acceptLatch (s : State) (l : Latch) : State :=
  if (s.entry l.port).role = .isolating then s
  else
    let r := s.latchEffect l.port
    let t := r.1.countLatch l .run s.rsq.stage r.1.nestDepth
    match r.2 with
    | some trip => t.requestTrip trip
    | none => t

/-- A latch applied by the Status Screen outside RUN: the role changes, and the string of the phase is renumbered
(R11, R18, R120). -/
def latchOutsideRun (s : State) (l : Latch) : State :=
  match (s.entry l.port).role with
  | .active =>
    ((s.updEntry l.port (fun e => { e with role := .failed, position := none })).renumberPhase
      (phaseOf l.port)).countLatch l s.mode .normal 0
  | .spare =>
    ((s.updEntry l.port (fun e => { e with role := .bypassed, insertionTarget := none })).renumberPhase
      (phaseOf l.port)).countLatch l s.mode .normal 0
  | .isolating | .bypassed | .failed | .absent => s

/-- A latch handed on: to the Restart Sequencer in RUN, to the Status Screen outside it (R119, R120, R127). -/
def takeLatch (s : State) (l : Latch) : State :=
  if s.mode = .run then s.acceptLatch l else s.latchOutsideRun l

/-- A latch found in a status frame: taken in the frame's own step, or, where it is late, handed to the Restart
Sequencer and waiting. Outside RUN there is nobody to hand it to, and the Status Screen applies it itself (R114, R119,
R120; log 38). -/
def handLatch (s : State) (l : Latch) (late : Bool) : State :=
  if late ∧ s.mode = .run then s.updSsc (fun c => { c with handed := c.handed ++ [l] }) else s.takeLatch l

/-- The latches handed over reach the Restart Sequencer, in their order; one that finds the mode no longer RUN is the
Status Screen's (R36, R45, R119, R120; log 38). -/
def takeHanded (s : State) : State := s.ssc.handed.foldl takeLatch (s.updSsc (fun c => { c with handed := [] }))

end State

end Sys2Proof.Machine
end

