-- ==== Sys2Proof/Machine/Actuation.lean ====
section
/-! DEFINITION. The Bypass Actuation Unit: the supply, reconciliation, the actuation queue, confirmation and failure,
blind bypass, the settle count (chapter 3). -/

namespace Sys2Proof.Machine

/-- The effective supply: at least two of the three samples are "ok" (R53). -/
def SupplyHistory.effective (h : SupplyHistory) : Bool :=
  (h.oldest && h.middle) || (h.oldest && h.newest) || (h.middle && h.newest)

/-- A sample joins the history as its newest member and the oldest is dropped (R53). -/
def SupplyHistory.sample (h : SupplyHistory) (ok : Bool) : SupplyHistory :=
  { oldest := h.middle, middle := h.newest, newest := ok }

/-- The periods from one period number to a later one, counted through the wrap of the counter (R94). -/
def periodsSince (start now : Period) : Nat := (now - start).toNat

namespace State

/-- BAU step 1: the level of the line is sampled (R53). -/
def supplyStep (s : State) : State :=
  s.updBau (fun b => { b with supply := b.supply.sample s.lines.bypassSupplyOk })

/-- The entry in flight, which is the head of the queue (R57). -/
def inFlight? (s : State) : Option Actuation := s.bau.queue.head?.filter (fun a => a.issued.isSome)

/-- The head of the queue removed. -/
def dropHead (s : State) : State := s.updBau (fun b => { b with queue := b.queue.drop 1 })

/-- A port's retry mark set or cleared (R61, R62). -/
def setRetry (s : State) (p : Port) (on : Bool) : State :=
  s.updBau (fun b => { b with retry := b.retry.set p.val on })

/-- The outcome of a failed CLOSED entry: BYPASS_FAIL is raised, and in RUN an ISOLATING cell on a port that is not
LOST trips the part (R63, R147; log 29). The entry still stands in the queue then, so that compaction finds the
closure not confirmed, whatever contact is recorded (R13, R63; log 32). -/
def closeFailed (s : State) (p : Port) : State :=
  if (s.entry p).role = .isolating ∧ s.mode = .run ∧ (s.link p).state ≠ .lost then
    (s.raise .bypassFail).requestTrip { cause := .bypassFail, port := some p }
  else s.raise .bypassFail

/-- A port whose failed entry is reconciled again at the next period start (R63, R64; log 31). -/
def retryNext (s : State) (p : Port) : State := s.updPs (fun q => { q with failed := some p })

/-- The outcome of a failed OPEN entry (R64). Selection for an abandoned cell is due where the failure falls in stage
INHIBIT or ISOLATE, and in no other stage (R15); it is a step of its own, before or after reconciliation. A spare is closed by the reconciliation of this period start, an ACTIVE cell outside RUN is
reconciled again at the next one (log 31). -/
def openFailed (s : State) (p : Port) : State :=
  if (s.entry p).role = .spare then
    let t := s.updEntry p (fun e =>
      { e with insertionTarget := none, ineligible := e.ineligible || (s.link p).state != .lost })
    ((t.raise .spareOpenFail).writeLog (s.entryNow .spareOpenFail (some p))).updPs
      (fun q => { q with selectionDue := (s.entry p).insertionTarget.isSome && s.selectionStage })
  else if (s.entry p).role = .active ∧ s.mode ≠ .run then (s.raise .bypassFail).retryNext p
  else s.raise .bypassFail

/-- Whether the confirmation window of the entry in flight has closed: confirm_limit periods have gone by since its
issue (R62). -/
def windowClosed (s : State) : Bool :=
  s.inFlight?.any (fun a => decide (s.settings.confirmLimit ≤ periodsSince (a.issued.getD 0) s.ctu.counter))

/-- BAU step 2: an in-flight entry whose window has closed fails (R62 to R64). -/
def failStep (s : State) : State :=
  match s.inFlight? with
  | some a =>
    if s.windowClosed then
      let t := s.setRetry a.port true
      match a.dir with
      | .closed => (t.closeFailed a.port).dropHead.retryNext a.port
      | .opened => t.dropHead.openFailed a.port
    else s
  | none => s

/-- CRS: spare selection for the cell that a failed OPEN has left without its spare (R15, R64). -/
def selectStep (s : State) : State :=
  if s.ps.selectionDue then (s.updPs (fun q => { q with selectionDue := false })).reselect else s

/-- Whether a cell is to be deemed closed at this period start (R65). -/
def deemable (s : State) (p : Port) : Bool :=
  (s.entry p).role == .isolating && (s.link p).state == .lost && s.episodePolicy.any (fun e => e.blindAllowed)
    && !(s.entry p).blind
    && (s.bau.blindStart[p.val]).any (fun b => decide (s.settings.blindWait ≤ periodsSince b s.ctu.counter))

/-- One cell deemed closed: blind is set, bypass_order becomes CLOSED, and the port's in-flight CLOSED entry is removed
(R65). -/
def deemClosed (s : State) (p : Port) : State :=
  let t := s.updEntry p (fun e => { e with blind := true, bypassOrder := .closed })
  if s.inFlight?.any (fun a => a.port == p && a.dir == .closed) then t.dropHead else t

/-- BAU step 3: every cell that is to be deemed closed is (R65). -/
def deemStep (s : State) : State := (allPorts.filter s.deemable).foldl deemClosed s

/-- The direction of the entry reconciliation appends for a port, where it appends one (R54). The port whose entry has
failed at this same period start waits for the next one where R63 or R64 says so (log 31). -/
def reconcileDir? (s : State) (p : Port) : Option Order :=
  let e := s.entry p
  let st := (s.link p).state
  if (st = .up ∨ st = .missing) ∧ !s.queued p ∧ s.ps.failed ≠ some p then
    e.standing.filter (fun o => e.bypassOrder != o || s.bau.retry[p.val])
  else none

/-- The entries reconciliation appends in one direction, by ascending port (R55). -/
def reconcileEntries (s : State) (d : Order) : List Actuation :=
  (allPorts.filter (fun p => s.reconcileDir? p = some d)).map
    (fun p => { port := p, dir := d, enqueued := s.ctu.counter, issued := none })

/-- BAU step 4: reconciliation; the CLOSED entries join the tail before the OPEN entries (R54, R55). -/
def reconcileStep (s : State) : State :=
  s.updBau (fun b => { b with queue := b.queue ++ s.reconcileEntries .closed ++ s.reconcileEntries .opened })

/-- The ISOLATE completion condition (R67). -/
def isolateComplete (s : State) : Bool :=
  allPorts.all (fun p =>
    match (s.entry p).role with
    | .isolating => s.closureOk p
    | .spare => (s.entry p).insertionTarget.isNone || s.openingConfirmed p
    | .absent | .active | .bypassed | .failed => true)

/-- BAU step 5: in RUN, at a period start whose period just ended was an ISOLATE period, the settle count advances or
is cleared, and completion is reported when it stands at settle (R68). -/
def settleStep (s : State) : State :=
  if s.mode = .run ∧ s.ps.stageEnded = .isolate then
    if s.isolateComplete then
      let n := if s.bau.settleCount < s.settings.settle then s.bau.settleCount + 1 else s.bau.settleCount
      (s.updBau (fun b => { b with settleCount := n })).updPs
        (fun p => { p with settleDone := decide (n = s.settings.settle) })
    else s.updBau (fun b => { b with settleCount := 0 })
  else s

/-- Whether mode and stage let the head entry be issued (R58). -/
def mayIssue (s : State) : Bool := s.mode != .run || s.rsq.stage == .isolate

/-- The entry the issue step issues, if any: the head, none being in flight, with the supply OK (R58). -/
def issuable? (s : State) : Option Actuation :=
  if s.bau.supply.effective && s.mayIssue then s.bau.queue.head?.filter (fun a => a.issued.isNone) else none

/-- BAU step 6: the head entry is issued, and the port's bypass_order becomes its direction (R58, R59). -/
def issueStep (s : State) : State :=
  match s.issuable? with
  | some a =>
    (s.updBau (fun b => { b with queue := { a with issued := some s.ctu.counter } :: b.queue.drop 1 })).updEntry a.port
      (fun e => { e with bypassOrder := a.dir })
  | none => s

/-- The contact of an accepted status frame reaches the BAU: it confirms the port's in-flight entry where it equals
the entry's direction, and a FAILED cell that reports CLOSED becomes BYPASSED (R12, R61). -/
def confirmContact (s : State) (p : Port) (c : Contact) : State :=
  let t := if s.inFlight?.any (fun a => a.port == p && a.dir.contact == c) then s.dropHead.setRetry p false else s
  if (t.entry p).role = .failed ∧ c = .closed then t.updEntry p (fun e => { e with role := .bypassed }) else t

/-- A waiting entry for a port that enters LOST is removed (R60). -/
def dropWaiting (s : State) (p : Port) : State :=
  s.updBau (fun b => { b with queue := b.queue.filter (fun a => a.port != p || a.issued.isSome) })

end State

end Sys2Proof.Machine
end

