-- ==== Sys2Proof/Decode.lean ====
section
/-! DEFINITION. The bytes of the frames the part receives: the CRC, the form check of the downstream link, the
layout of a status frame, and `decodeTableWord` over the rows of the opcode table that give bits (there are none). -/

namespace Sys2Proof

/-- One bit of the CRC register: a shift left, with the polynomial x^16 + x^12 + x^5 + 1 where the top bit was set
(R175). -/
def crcShift (r : Half) : Half :=
  if r.getLsbD 15 then (r <<< 1) ^^^ 0x1021#16 else r <<< 1

/-- One byte into the CRC, most significant bit first (R175). -/
def crcByte (r : Half) (b : Byte) : Half :=
  crcShift (crcShift (crcShift (crcShift (crcShift (crcShift (crcShift (crcShift
    (r ^^^ (b.setWidth 16 <<< 8)))))))))

/-- The CRC over a run of bytes, from initial value 0xFFFF, without a final inversion (R175). -/
def crc16 (bytes : List Byte) : Half := bytes.foldl crcByte 0xFFFF#16

/-- A field of one byte. -/
def u8 (n : Nat) : List Byte := [BitVec.ofNat 8 n]

/-- A field of two bytes, most significant byte first (R174). -/
def u16 (n : Nat) : List Byte := [BitVec.ofNat 8 (n / 256), BitVec.ofNat 8 n]

/-- A field of three bytes, most significant byte first (DEDUCED from R174, log 17). -/
def u24 (n : Nat) : List Byte := BitVec.ofNat 8 (n / 65536) :: u16 n

/-- A field of four bytes, most significant byte first (R174). -/
def u32 (n : Nat) : List Byte := u16 (n / 65536) ++ u16 n

/-- A two-byte word as its bytes, most significant first (R174). -/
def half (h : Half) : List Byte := u16 h.toNat

/-- A signed field of two bytes, two's-complement (R174). -/
def s16 (i : Int) : List Byte := half (BitVec.ofInt 16 i)

/-- A yes or no as a number. -/
def bit (b : Bool) : Nat := if b then 1 else 0

/-- Two bytes read as one word, most significant byte first (R174). -/
def joinHalf (hi lo : Byte) : Half := hi ++ lo

/-- The bytes of a frame with its CRC at the end (R174, R175). -/
def withCrc (body : List Byte) : List Byte := body ++ half (crc16 body)

/-- The bytes before the CRC, where there are at least two more and the two last are the CRC of the others (R175). -/
def stripCrc (bytes : List Byte) : Option (List Byte) :=
  let n := bytes.length - 2
  if 2 ≤ bytes.length ∧ bytes.drop n = half (crc16 (bytes.take n)) then some (bytes.take n) else none

/-- The type codes of the frames the part receives (R176). -/
def typeRef : Byte := 0xA1#8
@[inherit_doc typeRef] def typeMgt : Byte := 0xA2#8
@[inherit_doc typeRef] def typeSts : Byte := 0xD1#8

/-- Byte 2 of a REF frame: motion code in bits 2..0, grant flag in bit 7 (R176). -/
def refControl (f : RefFrame) : Byte := (if f.grant then 0x80#8 else 0#8) ||| f.motionCode.setWidth 8

/-- The twelve bytes of a REF frame (R176). -/
def encodeRef (f : RefFrame) : List Byte :=
  withCrc ([typeRef, f.seq, refControl f, f.token] ++ half f.vA ++ half f.vB ++ half f.vC)

/-- The bytes of an MGT frame (R176). -/
def encodeMgt (f : MgtFrame) : List Byte :=
  withCrc ([typeMgt, f.tag, f.code] ++ u8 f.payload.length ++ f.payload)

/-- What the form check of R139 makes of a run of bytes. -/
inductive Downstream where
  | ref (f : RefFrame)
  | mgt (f : MgtFrame)
  | bad
  deriving DecidableEq, Repr

/-- The body of a REF frame, without its CRC (R176). Bits not assigned to a field are not examined (R174). -/
def parseRefBody : List Byte → Downstream
  | [_, seq, control, token, a1, a0, b1, b0, c1, c0] =>
    .ref { seq := seq, motionCode := control.setWidth 3, grant := control.getLsbD 7, token := token,
           vA := joinHalf a1 a0, vB := joinHalf b1 b0, vC := joinHalf c1 c0 }
  | _ => .bad

/-- The body of an MGT frame, without its CRC: its length field must lie in 0..120 and be the payload's length
(R139, R174). -/
def parseMgtBody : List Byte → Downstream
  | _ :: tag :: code :: len :: payload =>
    if len.toNat ≤ 120 ∧ payload.length = len.toNat then .mgt { tag := tag, code := code, payload := payload }
    else .bad
  | _ => .bad

/-- The form check of R139 and the routing by type. -/
def parseDownstream (bytes : List Byte) : Downstream :=
  match stripCrc bytes with
  | none => .bad
  | some body =>
    match body.head? with
    | none => .bad
    | some t => if t = typeRef then parseRefBody body else if t = typeMgt then parseMgtBody body else .bad

/-- A status frame as its bytes give it (R176): port, tag, status word, contact code, vdc, capture. -/
structure StsFrame where
  port : Byte
  tag : Byte
  word : Half
  contactCode : BitVec 3
  vdc : BitVec 13
  capture : Half
  deriving DecidableEq, Repr

/-- The eleven bytes of a status frame (R176). -/
def encodeSts (f : StsFrame) : List Byte :=
  withCrc ([typeSts, f.port, f.tag] ++ half f.word ++ half (f.contactCode ++ f.vdc) ++ half f.capture)

/-- The body of a status frame, without its CRC. -/
def parseStsBody : List Byte → Option StsFrame
  | [t, port, tag, w1, w0, v1, v0, c1, c0] =>
    if t = typeSts then
      some { port := port, tag := tag, word := joinHalf w1 w0,
             contactCode := (joinHalf v1 v0).extractLsb' 13 3, vdc := (joinHalf v1 v0).setWidth 13,
             capture := joinHalf c1 c0 }
    else none
  | _ => none

/-- Check 1 of R129 but for the ranges of contact code, vdc and capture: eleven bytes, the STS code, a good CRC. -/
def parseSts (bytes : List Byte) : Option StsFrame := (stripCrc bytes).bind parseStsBody

/-- The command a word spells by the opcode table's bits. No row of the table gives bits, so no word spells one. -/
def decodeTableWord (_nbits _w : Nat) : Option Instr := none

end Sys2Proof
end

