-- ==== Sys2Proof/Machine/Alignment.lean ====
section
/-! DEFINITION. The Carrier Timing Unit: targets, phase loads, captures and phase errors, trims, alignment
(chapter 5). -/

namespace Sys2Proof.Machine

/-- A carrier target: (base + floor(k·P/N)) mod 2P (R96). -/
def targetOf (base k p n : Nat) : Nat := (base + k * p / n) % (2 * p)

/-- A phase load for a target and a link delay: the position u = (t + d) mod 2P as count and direction (R97). -/
def loadOf (t d p : Nat) : Plan :=
  let u := (t + d) % (2 * p)
  if u < p then .load u false else .load (2 * p - u) true

/-- The corrected capture: (c − link_delay) mod 2P (R98). -/
def correctedOf (c d p : Nat) : Nat := (((c : Int) - d) % (2 * p : Nat)).toNat

/-- A raw error wrapped into (−P, P] (R98). -/
def wrapError (raw : Int) (p : Nat) : Int :=
  if (p : Int) < raw then raw - 2 * p else if raw ≤ -(p : Int) then raw + 2 * p else raw

/-- A trim: the error, limited to J (R100). -/
def trimOf (e : Int) (j : Nat) : Int := if e.natAbs ≤ j then e else j * e.sign

/-- Whether the frame a capture answers leaves it judged: it carried no phase load (R99). -/
def Plan.judges : Plan → Bool
  | .load _ _ => false
  | .nothing | .trim _ => true

/-- Whether the frame a capture answers leaves it usable for a trim: no load and no non-zero trim (R99). -/
def Plan.usable : Plan → Bool
  | .nothing => true
  | .trim t => t == 0
  | .load _ _ => false

namespace State

/-- The carrier target of a port: present for ACTIVE and ISOLATING ports (R96). -/
def targetNow (s : State) (p : Port) : Option Nat :=
  if (s.entry p).inString then
    some (targetOf (s.ctu.bases.get (phaseOf p)) ((s.entry p).position.getD 0) s.ctu.pInForce
      (s.stringLength (phaseOf p)))
  else none

/-- The capture of an accepted status frame with the error formed from it (R98). -/
def captureOf (s : State) (p : Port) (c : Nat) : Capture :=
  let c' := correctedOf c (s.entry p).linkDelay s.ctu.pInForce
  { raw := c, corrected := c', error := (s.cport p).target.map (fun t => wrapError ((c' : Int) - t) s.ctu.pInForce) }

/-- Pass count and aligned mark after a judged capture of a string cell in ALIGN (R104). -/
def judgePass (aTol : Nat) (e : Int) (c : CarrierPort) : CarrierPort :=
  if e.natAbs ≤ aTol then
    { c with passCount := min 2 (c.passCount + 1), aligned := c.aligned || decide (2 ≤ c.passCount + 1) }
  else { c with passCount := 0, aligned := false }

/-- Whether captures count toward alignment: mode RUN and stage ALIGN (R104), from the acceptance of START on and not
only from the period start that begins alignment (DEDUCED, log 36). -/
def aligning (s : State) : Bool := s.mode == .run && s.rsq.stage == .align

/-- The capture of an accepted status frame reaches the CTU (R98, R99, R104). A judged one accepted in ALIGN before
alignment begins counts; R102 clears what it left (DEDUCED, log 36). -/
def takeCapture (s : State) (p : Port) (c : Nat) : State :=
  let cap := s.captureOf p c
  let t := s.updCport p (fun q => { q with capture := some cap })
  match cap.error with
  | some e =>
    if (s.cport p).sent.judges then
      let u := t.updCport p (fun q => { q with lastError := some e })
      if s.aligning ∧ (s.entry p).inString then u.updCport p (judgePass s.settings.aTol e) else u
    else t
  | none => t

/-- The error of the capture of the period just ended, where one was accepted and is usable for a trim (R99, R100). -/
def usableError? (s : State) (p : Port) : Option Int :=
  if s.ps.answered[p.val] ∧ (s.cport p).sent.usable then (s.cport p).capture.bind (fun c => c.error) else none

/-- The trim planned for a port: from its usable error, or 0 (R100). -/
def trimPlan (s : State) (p : Port) : Plan := .trim (((s.usableError? p).map (fun e => trimOf e s.settings.j)).getD 0)

/-- The phase load planned for a port with the given target (R97). -/
def loadPlan (s : State) (p : Port) (t : Option Nat) : Plan :=
  loadOf (t.getD 0) (s.entry p).linkDelay s.ctu.pInForce

/-- A string cell's carrier record at the period start that begins alignment (R102). -/
def beginAlign (s : State) (p : Port) (t : Option Nat) (c : CarrierPort) : CarrierPort :=
  { c with passCount := 0, aligned := false, lastError := none, sent := s.loadPlan p t }

/-- A string cell's carrier record at a later period start of ALIGN (R103, R104): one whose period, as the other blocks
leave it, is an ALIGN period (DEDUCED, log 37). -/
def continueAlign (s : State) (p : Port) (t : Option Nat) (c : CarrierPort) : CarrierPort :=
  let missed := !c.aligned && !s.ps.answered[p.val]
  let c := if missed then { c with passCount := 0 } else c
  if c.lastError.any (fun e => decide (s.settings.aTol < e.natAbs)) then
    { c with passCount := 0, aligned := false, lastError := none, sent := s.loadPlan p t }
  else { c with sent := s.trimPlan p }

/-- The plan for a port of a period that is no ALIGN period: a trim for an ACTIVE port in NORMAL and RESUME, nothing
otherwise (R100). -/
def otherPlan (s : State) (p : Port) : Plan :=
  if s.mode = .run ∧ (s.rsq.stage = .normal ∨ s.rsq.stage = .resume) ∧ (s.entry p).role = .active then s.trimPlan p
  else .nothing

/-- A port's carrier record with target and frame plan for the period that begins (R96, R100, R102, R103). A plan for
a port that is sent no frame carries nothing (R99). The plan comes after the window check, so that a period start whose
window check moves the stage to INHIBIT is none of ALIGN here, and the pass counts stay (DEDUCED, log 37). -/
def plannedPort (s : State) (p : Port) (c : CarrierPort) : CarrierPort :=
  let t := s.targetNow p
  let c := { c with target := t }
  let c :=
    if s.aligning ∧ (s.entry p).inString then
      if s.ctu.windowStart.isNone then s.beginAlign p t c else s.continueAlign p t c
    else { c with sent := s.otherPlan p }
  if (s.link p).state.sends then c else { c with sent := .nothing }

/-- CTU: targets and frame plans of the period that begins; the first ALIGN period start is recorded as the window
start (R96, R100, R102, R103). -/
def planStep (s : State) : State :=
  (s.mapCports s.plannedPort).updCtu (fun c =>
    if s.aligning ∧ s.ctu.windowStart.isNone then { c with windowStart := some s.ctu.counter } else c)

/-- Whether every string cell is marked aligned, alignment having begun (R105). -/
def allAligned (s : State) : Bool :=
  s.ctu.windowStart.isSome && s.stringCells.all (fun p => (s.cport p).aligned)

/-- The string cells that fail their window: the stage is ALIGN, the counter stands at the window start plus
align_limit, and their mark is no (R106). -/
def windowFailures (s : State) : List Port :=
  if s.aligning ∧ s.ctu.windowStart.any (fun w => s.ctu.counter == w + BitVec.ofNat 32 s.settings.alignLimit) then
    s.stringCells.filter (fun p => !(s.cport p).aligned)
  else []

/-- One ALIGN_FAIL latch handed to the Restart Sequencer, while the mode is RUN (R106, log 12). -/
def failAlign (s : State) (p : Port) : State :=
  if s.mode = .run then s.acceptLatch { kind := .alignFail, port := p } else s

/-- CTU: the window check (R106). The flag is raised once, and the latches are taken by ascending port. -/
def windowStep (s : State) : State :=
  (s.windowFailures).foldl failAlign (if s.windowFailures = [] then s else s.raise .alignFail)

end State

end Sys2Proof.Machine
end

