-- ==== Sys2Proof/Machine/Modulation.lean ====
section
/-! DEFINITION. The Reference Transform Unit: the reference taken, the transform, the ramp, the per-cell index and
the compare pairs (chapter 4). -/

namespace Sys2Proof.Machine

/-- acc_x: the exact product of one row of coefficients with the reference (R80). -/
def accumulate (row : Tri Half) (v : Tri Half) : Int :=
  row.a.toInt * v.a.toInt + row.b.toInt * v.b.toInt + row.c.toInt * v.c.toInt

/-- The transform output before the ceiling: acc_x / 16384, rounded (R80). -/
def transformOut (row : Tri Half) (v : Tri Half) : Int := roundDiv (accumulate row v) 16384

/-- The ramp: a clamped output scaled by g/1024, rounded (R82). -/
def rampOut (y : Int) (g : Nat) : Int := roundDiv (y * g) 1024

/-- The per-cell index before its clamp: y′·N_nom/N_x, rounded (R83). A phase without cells has an open value
(log 14). -/
def cellIndex (y : Int) (nNom n : Nat) : Int :=
  if n = 0 then Config.emptyStringIndex y nNom else roundDiv (y * nNom) n

/-- The compare pair of an index at a half-period (R84). -/
def pairOf (p : Nat) (m : Int) : Pair :=
  let cL := (((p : Int) * (m + 32768) + 32768) / 65536).toNat
  { cL := cL, cR := p - cL }

/-- What one computation makes of one phase (R80 to R84). -/
structure PhaseOut where
  y : Int
  yRamped : Int
  m : Int
  pair : Pair
  xformClamped : Bool
  cellClamped : Bool
  deriving DecidableEq, Repr

/-- The five steps for one phase: transform, ceiling, ramp, per-cell index with its clamp, compare pair (R80 to
R84). -/
def computePhase (e : RebalEntry) (v : Tri Half) (g nNom n p : Nat) (x : Phase) : PhaseOut :=
  let raw := transformOut (e.coef.get x) v
  let y := clampTo (min e.ceiling 32767 : Nat) raw
  let yr := rampOut y g
  let rawM := cellIndex yr nNom n
  let m := clampTo 32767 rawM
  { y := y, yRamped := yr, m := m, pair := pairOf p m, xformClamped := raw != y, cellClamped := rawM != m }

/-- A clamp count after a computation: one more where the clamp acted, saturating at 65535 (R86). -/
def countClamp (n : Nat) (acted : Bool) : Nat := if acted then saturate 65535 n else n

namespace State

/-- The reference of the period just ended is taken: the newest accepted one, or the held one; the current-period
reference is made absent (R77, R141). -/
def referenceStep (s : State) : State :=
  match s.cli.current with
  | some v =>
    (s.updRtu (fun t => { t with held := v, fresh := true })).updCli (fun c => { c with current := none })
  | none => s.updRtu (fun t => { t with fresh := false })

/-- Whether the RTU computes: mode RUN with stage NORMAL or RESUME (R78). -/
def switching (s : State) : Bool :=
  s.mode == .run && (s.rsq.stage == .normal || s.rsq.stage == .resume)

/-- What the computation makes of a phase with a given entry (R9, R76). -/
def phaseOut (s : State) (e : RebalEntry) (x : Phase) : PhaseOut :=
  computePhase e s.rtu.held s.rsq.rampGain s.settings.nNom (s.stringLength x) s.ctu.pInForce x

/-- The readout after a computation (R86, R87). -/
def storeOutputs (s : State) (i : Fin 64) (o : Phase → PhaseOut) : State :=
  s.updRtu (fun t =>
    { t with
      entryIndex := some i
      gain := s.rsq.rampGain
      y := Tri.of (fun x => (o x).y)
      yRamped := Tri.of (fun x => (o x).yRamped)
      m := Tri.of (fun x => (o x).m)
      pairs := Tri.of (fun x => (o x).pair)
      xformClamps := Tri.of (fun x => countClamp (t.xformClamps.get x) (o x).xformClamped)
      cellClamps := Tri.of (fun x => countClamp (t.cellClamps.get x) (o x).cellClamped) })

/-- A flag raised where a condition holds. -/
def raiseIf (s : State) (c : Bool) (f : Flag) : State := if c then s.raise f else s

/-- The computation of a period start (R76, R78). Where the deficit tuple selects no entry, which R26 rules out in
NORMAL and RESUME, no computation is made (log 14). -/
def computeStep (s : State) : State :=
  if s.switching then
    match rebalIndex s.deficits with
    | some i =>
      let o := s.phaseOut s.rebalActive[i.val]
      ((s.storeOutputs i o).raiseIf (Phase.list.any (fun x => (o x).xformClamped)) .xformClamp).raiseIf
        (Phase.list.any (fun x => (o x).cellClamped)) .cellClamp
    | none => s
  else s

end State

end Sys2Proof.Machine
end

