-- ==== Sys2Proof/Machine/Screening.lean ====
section
/-! DEFINITION. The Status Screen: classification and what each classification does (chapter 6). -/

namespace Sys2Proof.Machine

/-- Whether a status word matches an entry: they agree on every bit set in the mask (R113). -/
def ScreenEntry.admits (e : ScreenEntry) (w : Half) : Bool := w &&& e.mask == e.pattern &&& e.mask

namespace State

/-- The index of the entry that decides a word: the lowest valid one that it matches (R113). -/
def deciding? (s : State) (w : Half) : Option (Fin 16) :=
  (List.finRange 16).find? (fun i => (s.screenActive[i.val]).valid && (s.screenActive[i.val]).admits w)

/-- The hit count of the deciding entry after a classification, saturating at 65535 (R113). -/
def countHit (s : State) (i : Fin 16) : State :=
  s.updSsc (fun c => { c with hits := c.hits.set i.val (saturate 65535 c.hits[i.val]) })

/-- A word classified NOTE (R115). -/
def noteWord (s : State) (p : Port) : State :=
  (s.updEntry p (fun e => { e with noteCount := saturate 65535 e.noteCount })).raise .note

/-- Whether a CLIP that does not escalate zeroes the cell: mode RUN, stage NORMAL or RESUME, role ACTIVE (R116). -/
def clipZeroes (s : State) (p : Port) : Bool :=
  s.mode == .run && (s.rsq.stage == .normal || s.rsq.stage == .resume) && (s.entry p).role == .active

/-- A word classified CLIP: the bucket fills, and the clip escalates to a latch at clip_limit or takes its effect
below it (R116, R117). -/
def clipWord (s : State) (p : Port) (w : Half) (i : Fin 16) (late : Bool) : State :=
  let n := (s.entry p).clipBucket + 1
  let t := s.raise .clip
  if s.settings.clipLimit ≤ n then
    (t.updEntry p (fun e => { e with clipBucket := 0 })).handLatch
      { kind := .clipEscalated, port := p, word := some (w, i) } late
  else
    let u := t.updEntry p (fun e => { e with clipBucket := n })
    if s.clipZeroes p then u.urgentZero p else u

/-- A word classified TRIP: in RUN it trips the part, outside RUN it is reported in a record (R121). -/
def tripWord (s : State) (p : Port) (w : Half) (i : Fin 16) : State :=
  let t := s.raise .tripCause
  if s.mode = .run then t.requestTrip { cause := .tripStatus, port := some p, word := some (w, i) }
  else
    t.writeLog { kind := .tripStatus, port := some p, word := some (w, i), mode := s.mode, stage := .normal,
                 restartNumber := s.rsq.restartNumber, nestDepth := 0 }

/-- The effect of a classification by its deciding entry (R115 to R121). -/
def applyAction (s : State) (p : Port) (w : Half) (i : Fin 16) (a : Action) (late : Bool) : State :=
  match a with
  | .pass => s
  | .note => s.noteWord p
  | .clip => s.clipWord p w i late
  | .latch => s.handLatch { kind := .latchStatus, port := p, word := some (w, i) } late
  | .trip => s.tripWord p w i

/-- Whether a cell's frames are screened: its role is ACTIVE or SPARE (R114). -/
def screened (s : State) (p : Port) : Bool := (s.entry p).role == .active || (s.entry p).role == .spare

/-- The status word of an accepted frame reaches the SSC (R113, R114). Whether a LATCH in it reaches the Restart
Sequencer at once or late is the sender's choice (DESIGN CHOICE, log 38). -/
def screenWord (s : State) (p : Port) (w : Half) (late : Bool) : State :=
  if s.screened p then
    match s.deciding? w with
    | some i => (s.countHit i).applyAction p w i (s.screenActive[i.val]).action late
    | none => s
  else s

/-- Whether the leak count reaches leak_interval at this period start (R118). -/
def leakDue (s : State) : Bool := decide (s.settings.leakInterval ≤ s.ssc.leakCount + 1)

/-- SSC: the leak step; at leak_interval every clip bucket above 0 is decremented (R118). -/
def leakStep (s : State) : State :=
  if s.leakDue then
    (s.updSsc (fun c => { c with leakCount := 0 })).mapEntries (fun _ e => { e with clipBucket := e.clipBucket - 1 })
  else s.updSsc (fun c => { c with leakCount := c.leakCount + 1 })

end State

end Sys2Proof.Machine
end

