-- ==== Sys2Proof/Machine/Ports.lean ====
section
/-! DEFINITION. The Cell Link Ports: link states, loss of a link, status acceptance, command frames (chapter 7). -/

namespace Sys2Proof.Machine

/-- The trim ticks of a plan, 0 where it is no trim (R132). -/
def Plan.trimTicks : Plan → Int
  | .trim t => t
  | .nothing | .load _ _ => 0

/-- The phase load of a plan (R97, R132). -/
def Plan.loadFields : Plan → Option (Nat × Bool)
  | .load c d => some (c, d)
  | .nothing | .trim _ => none

/-- The contact a status frame's code stands for: OPEN 0, CLOSED 1, MOVING 2, UNKNOWN 3 (R176). -/
def contactOf (code : BitVec 3) : Contact :=
  match code.toNat with
  | 0 => .opened
  | 1 => .closed
  | 2 => .moving
  | _ => .unknown

/-- The frames sent in full since the last such moment leave the head of the transmit list; how many they are is a
free value (R136, log 7). -/
def Link.takeSent (p : Port) (l : Link) : Link :=
  { l with transmit := l.transmit.drop (Config.framesSent p l.moments), moments := l.moments + 1 }

/-- A port whose frames that have not begun are discarded: the frame that stands at the head of its list then is being
sent and completes (R136, log 7). -/
def Link.cut (p : Port) (l : Link) : Link :=
  let m := l.takeSent p
  { m with transmit := m.transmit.take 1 }

/-- A port that enters LINKING (R125). -/
def Link.toLinking (l : Link) : Link :=
  { l with state := .linking, missCount := 0, linkingCount := 0, accepted := false, tagSent := none }

/-- A port that moves to IDLE: both force marks are cleared and the list is emptied (R125, R133, R136). -/
def Link.toIdle (p : Port) (l : Link) : Link :=
  { l.cut p with state := .idle, missCount := 0, linkingCount := 0, tagSent := none, forceOnce := false,
                 forceContinuous := false }

/-- A port that enters LOST: it stops sending (R127). -/
def Link.toLost (p : Port) (l : Link) : Link := { l.cut p with state := .lost, tagSent := none }

/-- A port that accepts a status frame (R130). -/
def Link.accept (l : Link) : Link :=
  { l with state := .up, accepted := true, missCount := 0, framesAccepted := l.framesAccepted + 1,
           linkingCount := if l.state = .linking then 0 else l.linkingCount }

/-- What the four checks of R129 make of a status frame on a port. -/
inductive StsVerdict where
  | malformed | wrongPort | stale | repeated
  | accepted (f : StsFrame)
  deriving DecidableEq, Repr

namespace State

/-- Loss of the port of an ISOLATING cell in RUN: without blind_allowed the part trips (R66). -/
def loseIsolating (s : State) (p : Port) : State :=
  if s.mode = .run ∧ !s.governingPolicy.blindAllowed then
    s.requestTrip { cause := .linkLostNoBlind, port := some p }
  else s

/-- What the loss of a port does by the role of its cell: a selected spare is deselected, an ACTIVE cell is latched,
an ISOLATING cell is handled by R66 (R16, R66, R127). -/
def loseCell (s : State) (p : Port) : State :=
  match (s.entry p).role with
  | .spare => if (s.entry p).insertionTarget.isSome then (s.deselect p).reselect else s
  | .active => s.takeLatch { kind := .linkLost, port := p }
  | .isolating => s.loseIsolating p
  | .absent | .bypassed | .failed => s

/-- Entry to LOST: sending stops, LINK_LOST is raised, the contact becomes UNKNOWN, a waiting entry is removed, and
the loss acts on the cell (R4, R60, R127). -/
def enterLost (s : State) (p : Port) : State :=
  ((((s.updLink p (Link.toLost p)).raise .linkLost).updEntry p (fun e => { e with contact := .unknown })).dropWaiting
    p).loseCell p

/-- Whether the linking count of a port in LINKING advances: a period frame was sent at the start of the period just
ended (R125). -/
def linkingCounts (s : State) (p : Port) : Bool := (s.link p).state == .linking && (s.link p).tagSent.isSome

/-- Whether a port in UP or MISSING misses: no status was accepted in the period just ended (R126). -/
def misses (s : State) (p : Port) : Bool :=
  ((s.link p).state == .up || (s.link p).state == .missing) && !s.ps.answered[p.val]

/-- Whether a port enters LOST at this period start (R125, R126). -/
def losesPort (s : State) (p : Port) : Bool :=
  (s.linkingCounts p && decide (64 ≤ (s.link p).linkingCount + 1))
    || (s.misses p && decide (s.settings.missLimit ≤ (s.link p).missCount + 1))

/-- A port's counts at a period start (R125, R126). -/
def countPort (s : State) (p : Port) : State :=
  if s.linkingCounts p then s.updLink p (fun l => { l with linkingCount := l.linkingCount + 1 })
  else if s.misses p then s.updLink p (fun l => { l with missCount := l.missCount + 1, state := .missing })
  else s

/-- One port judged at a period start: its counts, and entry to LOST where a limit is reached (R125 to R127). -/
def judgePort (s : State) (p : Port) : State :=
  let t := (s.countPort p).updPs (fun q => { q with judged := p :: q.judged })
  if s.losesPort p then t.enterLost p else t

/-- CLP: every port not yet judged at this period start is (R125, R126). R125 to R127 give no order between the ports;
DESIGN CHOICE (log 33): ascending port, but for the ports that PORT_LOST has taken before. -/
def linksStep (s : State) : State :=
  (allPorts.filter (fun p => !s.ps.judged.contains p)).foldl judgePort s

/-- The command of a port's period frame (R131); a port that sends nothing gets none. -/
def periodCommand (s : State) (p : Port) : Option Command :=
  let l := s.link p
  if !l.state.sends then none
  else if (s.entry p).role ≠ .active then some .block
  else if !s.switching then some .block
  else if l.state = .linking then some .block
  else if l.forceOnce || l.forceContinuous then some .zero
  else some .switch

/-- The plan a period frame carries: in a BLOCK frame only in ALIGN (R132). -/
def carriedPlan (s : State) (p : Port) (c : Command) : Plan :=
  if c = .block ∧ !s.aligning then .nothing else (s.cport p).sent

/-- A period command frame (R131, R132). -/
def periodFrame (s : State) (p : Port) (c : Command) : CellFrame :=
  { urgent := false, port := p, tag := s.tag, command := c, order := (s.entry p).bypassOrder,
    pair := if c = .switch then s.rtu.pairs.get (phaseOf p) else neutralPair s.ctu.pInForce,
    trim := (s.carriedPlan p c).trimTicks, load := (s.carriedPlan p c).loadFields }

/-- A port's record once its period frame is composed: the frame joins the tail of the list, its tag is the tag sent,
and a ZERO of row 5 consumes the force-once mark (R131, R133). -/
def composedPort (s : State) (p : Port) (l : Link) : Link :=
  match s.periodCommand p with
  | some c =>
    { l with transmit := l.transmit ++ [s.periodFrame p c], tagSent := some s.tag, lastCommand := some c,
             forceOnce := l.forceOnce && c != .zero }
  | none => l

/-- CLP: the period command frames (R131). -/
def composeStep (s : State) : State := s.mapLinks s.composedPort

/-- Check 1 of R129: eleven bytes, the STS code, a good CRC, a contact code 0..3, vdc in 0..4095 and the capture in
0..2P−1. -/
def checkSts (s : State) (bytes : List Byte) : Option StsFrame :=
  (parseSts bytes).filter (fun f => decide (f.contactCode.toNat ≤ 3 ∧ f.vdc.toNat ≤ 4095 ∧
    f.capture.toNat < 2 * s.ctu.pInForce))

/-- The four acceptance checks in their order (R129). -/
def judgeSts (s : State) (p : Port) (bytes : List Byte) : StsVerdict :=
  match s.checkSts bytes with
  | none => .malformed
  | some f =>
    if f.port.toNat ≠ p.val then .wrongPort
    else if !((s.link p).state.sends && (s.link p).tagSent == some f.tag) then .stale
    else if (s.link p).accepted then .repeated
    else .accepted f

/-- The recorded state of an entry from an accepted frame; a CLOSED contact clears blind (R4, R6). -/
def recordStatus (s : State) (p : Port) (f : StsFrame) : State :=
  s.updEntry p (fun e =>
    { e with contact := contactOf f.contactCode, lastStatus := f.word, vdc := f.vdc.toNat,
             blind := e.blind && contactOf f.contactCode != .closed })

/-- An accepted status frame: the port's own state, then the four blocks that use its fields (R130). DESIGN CHOICE
(log 34): the contact is taken before the word is screened, so that outside RUN a frame that reports CLOSED and whose
word latches its ACTIVE cell leaves the cell FAILED until the next frame (R12). -/
def acceptSts (s : State) (p : Port) (f : StsFrame) (late : Bool) : State :=
  (((((s.updLink p Link.accept).recordStatus p f).confirmContact p (contactOf f.contactCode)).takeCapture p
    f.capture.toNat)).screenWord p f.word late

/-- A status frame judged and, where it passes, accepted (R129, R130). -/
def receiveSts (s : State) (p : Port) (bytes : List Byte) (late : Bool) : State :=
  match s.judgeSts p bytes with
  | .malformed => s.updLink p (fun l => { l with malformed := saturate 65535 l.malformed })
  | .wrongPort => s.updLink p (fun l => { l with wrongPort := saturate 65535 l.wrongPort })
  | .stale => s.updLink p (fun l => { l with stale := saturate 65535 l.stale })
  | .repeated => s.updLink p (fun l => { l with repeated := saturate 65535 l.repeated })
  | .accepted f => s.acceptSts p f late

end State

end Sys2Proof.Machine
end

