-- ==== Sys2Proof/Machine/Traffic.lean ====
section
/-! DEFINITION. The Control Link Interface: reference frames, grants, the hold count, the digest and the upstream list
(chapter 8). -/

namespace Sys2Proof.Machine

/-- The motion state a motion code stands for; code 7 is none (R142). -/
def motionOf (code : BitVec 3) : Option Motion :=
  match code.toNat with
  | 0 => some .braked
  | 1 => some .proving
  | 2 => some .accelerating
  | 3 => some .running
  | 4 => some .decelerating
  | 5 => some .creeping
  | 6 => some .levelling
  | _ => none

/-- Whether a request buffer counts as full: WAITING or ANSWERED (R151). -/
def Buffer.full : Buffer → Bool
  | .free => false
  | .waiting _ _ | .answered _ _ => true

/-- Whether a frame on the upstream list is a digest. -/
def UpFrame.isDigest : UpFrame → Bool
  | .digest _ => true
  | .reply _ _ => false

namespace State

/-- The number of request buffers that are not FREE (R151). -/
def bufferedRequests (s : State) : Nat := bit s.mga.buf0.full + bit s.mga.buf1.full

/-- The sequence number of the newest log record; none while the log is empty (R146, R172). -/
def newestLog (s : State) : Option Half := s.log.records.getLast?.map (fun r => r.sequence)

/-- The digest composed at a period start from the state at the close of the period just ended (R146, R147). -/
def digestNow (s : State) : Digest :=
  { period := s.ctu.counter, mode := s.mode, stage := s.rsq.stage, restartNumber := s.rsq.restartNumber,
    nestDepth := s.nestDepth, gapCount := s.rsq.gapCount, lengths := Tri.of s.stringLength,
    holdCount := s.cli.holdCount, flags := s.cli.flags, newestLog := s.newestLog, buffered := s.bufferedRequests }

/-- The digest placed and the event flag set handed over: it becomes the reported flag set and is cleared. The digest
of the period before, and the replies placed before that one, have been sent in full by then (R147, R148, log 8). -/
def placeDigest (s : State) : State :=
  s.updCli (fun c =>
    { c with reported := c.flags, flags := 0,
             upstream := c.upstream.filter (fun f => !f.isDigest) ++ [.digest s.digestNow] })

/-- The motion field of an accepted frame (R142). -/
def takeMotion (s : State) (code : BitVec 3) : State :=
  match motionOf code with
  | some m => s.updCli (fun c => { c with motion := m })
  | none => s.raise .motionInvalid

/-- Whether a grant is fresh: the stage is AWAIT_GRANT and the token is the restart number's low 8 bits (R35, R47). -/
def grantFresh (s : State) (token : Byte) : Bool :=
  s.rsq.stage == .awaitGrant && token == s.rsq.restartNumber.setWidth 8

/-- The grant fields of an accepted frame (R47, R143). -/
def takeGrant (s : State) (grant : Bool) (token : Byte) : State :=
  if grant then
    if s.grantFresh token then s.updRsq (fun r => { r with grantPending := true }) else s.raise .grantStale
  else s

/-- The phase references of an accepted frame become the current-period reference (R141). -/
def takeReference (s : State) (v : Tri Half) : State :=
  (s.raiseIf s.cli.current.isSome .refOverrun).updCli (fun c => { c with current := some v })

/-- A well-formed REF frame: a duplicate is discarded, any other is accepted (R140 to R143). -/
def receiveRef (s : State) (f : RefFrame) : State :=
  if s.cli.lastSeq = some f.seq then s.raise .refDuplicate
  else
    (((s.updCli (fun c => { c with lastSeq := some f.seq })).takeReference ⟨f.vA, f.vB, f.vC⟩).takeMotion
      f.motionCode).takeGrant f.grant f.token

/-- Whether the hold step trips the part: no reference in the period just ended, an increase that brings the count to
ref_hold_limit, mode RUN (R144). -/
def holdTrips (s : State) : Bool :=
  s.cli.current.isNone && decide (s.cli.holdCount + 1 = s.settings.refHoldLimit) && s.mode == .run

/-- The hold count after a period start (R144, R145). -/
def holdAfter (s : State) : Nat :=
  if s.cli.current.isSome then 0 else min s.settings.refHoldLimit (s.cli.holdCount + 1)

/-- CLI: the hold step (R144). -/
def holdStep (s : State) : State :=
  let t := s.updCli (fun c => { c with holdCount := s.holdAfter })
  if s.holdTrips then t.requestTrip { cause := .controlLost } else t

end State

end Sys2Proof.Machine
end

