-- ==== Sys2Proof/Machine/Frames.lean ====
section
/-! DEFINITION. The codes of R176 and the bytes of the frames the part sends: DIG, RPL, CMD and URG, and of a log
record as read out (R176, R177). -/

namespace Sys2Proof.Machine

/-- The code of a mode (R176). -/
def Mode.code : Mode → Nat
  | .standby => 0 | .run => 1 | .tripped => 2 | .safeStop => 3

/-- The code of a stage (R176). -/
def Stage.code : Stage → Nat
  | .normal => 0 | .inhibit => 1 | .isolate => 2 | .remap => 3 | .align => 4 | .awaitGrant => 5 | .resume => 6

/-- The code of a role (R176). -/
def Role.code : Role → Nat
  | .absent => 0 | .active => 1 | .spare => 2 | .isolating => 3 | .bypassed => 4 | .failed => 5

/-- The code of a contact state (R176). -/
def Contact.code : Contact → Nat
  | .opened => 0 | .closed => 1 | .moving => 2 | .unknown => 3

/-- The bit of a bypass order or direction: 1 is CLOSED (R176, R177). -/
def Order.code : Order → Nat
  | .opened => 0 | .closed => 1

/-- The code of a link state (R176). -/
def LinkState.code : LinkState → Nat
  | .idle => 0 | .linking => 1 | .up => 2 | .missing => 3 | .lost => 4

/-- The code of a command (R176). -/
def Command.code : Command → Nat
  | .switch => 0 | .zero => 1 | .block => 2

/-- The code of a screen action (R176). -/
def Action.code : Action → Nat
  | .pass => 0 | .note => 1 | .clip => 2 | .latch => 3 | .trip => 4

/-- The code of a motion state (section 2.3). -/
def Motion.code (m : Motion) : Nat := m.index.val

/-- The code of a result (R176). -/
def Result.code : Result → Nat
  | .done => 0 | .refusedMode => 1 | .refusedState => 2 | .badTable => 3 | .badIndex => 4 | .badLength => 5
  | .badValue => 6

/-- The code of a log kind (R176). -/
def LogKind.code : LogKind → Nat
  | .latchStatus => 1 | .linkLost => 2 | .alignFail => 3 | .clipEscalated => 4 | .tripStatus => 5 | .bypassFail => 6
  | .spareOpenFail => 7 | .restartForbidden => 8 | .nestLimit => 9 | .gapExpired => 10 | .noRebalance => 11
  | .linkLostNoBlind => 12 | .controlLost => 13 | .safetyStop => 14 | .recovered => 15

/-- The twenty-four bytes of a DIG frame (R176). The newest log sequence reads 0 while the log is empty (R172). -/
def digestBytes (d : Digest) : List Byte :=
  withCrc (u8 0xB1 ++ u32 d.period.toNat ++ u8 d.mode.code ++ u8 d.stage.code ++ half d.restartNumber
    ++ u8 d.nestDepth ++ u16 d.gapCount ++ u8 d.lengths.a ++ u8 d.lengths.b ++ u8 d.lengths.c ++ u8 d.holdCount
    ++ u24 d.flags.toNat ++ half (d.newestLog.getD 0) ++ u8 (128 * bit d.newestLog.isNone + d.buffered))

/-- The bytes of an RPL frame (R176). -/
def replyBytes (r : Reply) : List Byte :=
  withCrc ([0xB2#8, r.tag, r.code] ++ u8 r.result.code ++ [r.detail] ++ u8 r.payload.length ++ r.payload)

/-- The bytes of a frame on the upstream list (R148). -/
def UpFrame.bytes : UpFrame → List Byte
  | .digest d => digestBytes d
  | .reply _ r => replyBytes r

/-- The fourteen bytes of a CMD or URG frame (R176). -/
def cellBytes (f : CellFrame) : List Byte :=
  withCrc (u8 (if f.urgent then 0xC2 else 0xC1) ++ u8 f.port.val ++ [f.tag]
    ++ u8 (f.command.code + 16 * f.order.code + 128 * bit f.load.isSome) ++ u16 f.pair.cL ++ u16 f.pair.cR
    ++ [BitVec.ofInt 8 f.trim] ++ u16 ((f.load.map (fun l => l.1)).getD 0)
    ++ u8 (bit ((f.load.map (fun l => l.2)).getD false)))

/-- The three deficits, one byte each. -/
def deficitBytes (d : Tri Nat) : List Byte := u8 d.a ++ u8 d.b ++ u8 d.c

/-- The twenty bytes of a log record as read out; an absent optional field reads 0 with its presence bit clear, and an
absent port reads 0xFF (R174, R177). -/
def logBytes (r : LogRecord) : List Byte :=
  half r.sequence ++ u32 r.stamp.toNat ++ u8 ((r.port.map (fun p => p.val)).getD 0xFF) ++ u8 r.kind.code
    ++ u8 (3 * bit r.word.isSome + 4 * bit r.deficits.isSome) ++ half ((r.word.map (fun w => w.1)).getD 0)
    ++ u8 ((r.word.map (fun w => w.2.val)).getD 0) ++ u8 r.mode.code ++ u8 r.stage.code ++ half r.restartNumber
    ++ u8 r.nestDepth ++ deficitBytes (r.deficits.getD (Tri.all 0))

end Sys2Proof.Machine
end

