-- ==== Sys2Proof/Machine/Commits.lean ====
section
/-! DEFINITION. The copying of staged banks into active banks, and the PERIOD and RECOVERY marks (R111, R155, R156). -/

namespace Sys2Proof.Machine

/-- The table groups (R155). -/
inductive Group where
  | screen | rebalance | policy
  deriving DecidableEq, Repr

/-- The groups in the order SCREEN, REBALANCE, POLICY. -/
def Group.list : List Group := [.screen, .rebalance, .policy]

/-- The mark of one group. -/
def GroupMarks.get (m : GroupMarks) : Group → Bool
  | .screen => m.screen
  | .rebalance => m.rebalance
  | .policy => m.policy

/-- The mark of one group set or cleared. -/
def GroupMarks.put (m : GroupMarks) (g : Group) (on : Bool) : GroupMarks :=
  match g with
  | .screen => { m with screen := on }
  | .rebalance => { m with rebalance := on }
  | .policy => { m with policy := on }

/-- Marks set for the groups named, the others left (R155). -/
def GroupMarks.setAll (m : GroupMarks) (gs : List Group) (on : Bool) : GroupMarks :=
  gs.foldl (fun m g => m.put g on) m

namespace State

/-- One staged bank copied whole into its active bank; a screen copy sets the hit counts to 0 (R111, R155). -/
def copyBank (s : State) (g : Group) : State :=
  match g with
  | .screen => { s with screenActive := s.screenStaged, ssc := { s.ssc with hits := Vector.replicate 16 0 } }
  | .rebalance => { s with rebalActive := s.rebalStaged }
  | .policy => { s with policyActive := s.policyStaged }

/-- Several banks copied, COMMIT_APPLIED being raised if any was (R155, R156). -/
def copyBanks (s : State) (gs : List Group) : State :=
  (gs.foldl copyBank s).raiseIf (!gs.isEmpty) .commitApplied

/-- The staged rebalance entry at the index of the present deficit tuple, where it is valid (R155, R156). -/
def stagedLookup (s : State) : Option (Fin 64) := rebalLookup s.settings.nNom s.rebalStaged s.deficits

/-- The active rebalance entry at the index of the present deficit tuple, where it is valid (R26, R158). -/
def activeLookup (s : State) : Option (Fin 64) := rebalLookup s.settings.nNom s.rebalActive s.deficits

/-- The groups whose RECOVERY mark is set. -/
def recoveryDue (s : State) : List Group := Group.list.filter s.mga.recoveryMarks.get

/-- RECOVERY marks applied at REMAP completion, without a check; each is cleared (R26, R156). -/
def applyRecovery (s : State) : State :=
  (s.copyBanks s.recoveryDue).updMga (fun m => { m with recoveryMarks := ⟨false, false, false⟩ })

/-- Whether PERIOD marks are applied: the mode is other than RUN, or the stage is NORMAL (R156). -/
def periodCommitOpen (s : State) : Bool := s.mode != .run || s.rsq.stage == .normal

/-- The groups whose PERIOD mark is set. -/
def periodDue (s : State) : List Group := Group.list.filter s.mga.periodMarks.get

/-- Whether the rebalance check drops a group's PERIOD mark: REBALANCE in RUN with the staged entry at the present
tuple not valid (R156). -/
def commitDrops (s : State) (g : Group) : Bool := g == .rebalance && s.mode == .run && s.stagedLookup.isNone

/-- MGA: PERIOD marks applied at a period start; a dropped REBALANCE mark raises COMMIT_DROPPED (R156). -/
def commitStep (s : State) : State :=
  if s.periodCommitOpen then
    ((s.copyBanks (s.periodDue.filter (fun g => !s.commitDrops g))).raiseIf (s.periodDue.any s.commitDrops)
      .commitDropped).updMga (fun m => { m with periodMarks := ⟨false, false, false⟩ })
  else s

end State

end Sys2Proof.Machine
end

