-- ==== Sys2Proof/Machine/Operands.lean ====
section
/-! DEFINITION. The operands of a management request: the fields of its payload, the tables and groups it names, the
write entries and the configuration record it carries (R152, R153, R155, R177). -/

namespace Sys2Proof.Machine

/-- One byte of a payload as a number, where the payload holds it. -/
def byteAt (l : List Byte) (i : Nat) : Option Nat := l[i]?.map (fun b => b.toNat)

/-- One byte of a payload as a number, 0 beyond its end. -/
def byteOr (l : List Byte) (i : Nat) : Nat := (byteAt l i).getD 0

/-- A two-byte field of a payload, most significant byte first (R174). -/
def halfAt (l : List Byte) (i : Nat) : Half := joinHalf (l.getD i 0) (l.getD (i + 1) 0)

/-- The tables of R153. -/
inductive Table where
  | roster | screen | rebalance | policy | nest | actuation | transform | carrier | link | control | config
  deriving DecidableEq, Repr

/-- The table a code names (R176). -/
def Table.ofCode : Nat → Option Table
  | 0 => some .roster | 1 => some .screen | 2 => some .rebalance | 3 => some .policy | 4 => some .nest
  | 5 => some .actuation | 6 => some .transform | 7 => some .carrier | 8 => some .link | 9 => some .control
  | 10 => some .config | _ => none

/-- The number of entries of a table (R153). -/
def Table.entries : Table → Nat
  | .roster => 24 | .screen => 16 | .rebalance => 64 | .policy => 7 | .nest => 3 | .actuation => 24
  | .transform => 1 | .carrier => 24 | .link => 24 | .control => 1 | .config => 1

/-- Whether a table is banked (R153). -/
def Table.banked : Table → Bool
  | .screen | .rebalance | .policy => true
  | .roster | .nest | .actuation | .transform | .carrier | .link | .control | .config => false

/-- The bytes of a table's header as read, by bank code (R177). -/
def Table.headerSize (t : Table) (bank : Nat) : Nat :=
  match t with
  | .screen => if bank = 1 then 2 else 0
  | .actuation => 6
  | .carrier => 18
  | .roster | .rebalance | .policy | .nest | .transform | .link | .control | .config => 0

/-- The bytes of an entry as read, by bank code (R177). -/
def Table.entrySize (t : Table) (bank : Nat) : Nat :=
  match t with
  | .roster => 14
  | .screen => if bank = 1 then 7 else 5
  | .rebalance => 21
  | .policy => 5
  | .nest => 16
  | .actuation => 10
  | .transform => 56
  | .carrier => 14
  | .link => 16
  | .control => 7
  | .config => 23

/-- The bytes of an entry as written; none for a table that cannot be written (R154, R177). -/
def Table.writeSize : Table → Option Nat
  | .roster => some 4
  | .screen => some 5
  | .rebalance => some 21
  | .policy => some 5
  | .nest | .actuation | .transform | .carrier | .link | .control | .config => none

/-- The groups a group code names; ALL stands for the three (R155, R176). -/
def groupsOf : Nat → Option (List Group)
  | 1 => some [.screen]
  | 2 => some [.rebalance]
  | 3 => some [.policy]
  | 4 => some Group.list
  | _ => none

/-- The role a role code names; codes 6 and 7 name none (R176). -/
def Role.ofCode : Nat → Option Role
  | 0 => some .absent | 1 => some .active | 2 => some .spare | 3 => some .isolating | 4 => some .bypassed
  | 5 => some .failed | _ => none

/-- The action an action code names (R112, R176). -/
def Action.ofCode : Nat → Option Action
  | 0 => some .pass | 1 => some .note | 2 => some .clip | 3 => some .latch | 4 => some .trip | _ => none

/-- A roster write entry as its four bytes give it (R19, R177). -/
structure RosterWrite where
  installed : Bool
  role : Option Role
  position : Nat
  rank : Nat
  linkDelay : Nat
  deriving DecidableEq, Repr

/-- The roster write entry in four bytes of a payload (R177). -/
def rosterWriteAt (l : List Byte) (i : Nat) : RosterWrite :=
  { installed := (l.getD i 0).getLsbD 7, role := Role.ofCode (byteOr l i % 8), position := byteOr l (i + 1),
    rank := byteOr l (i + 2), linkDelay := byteOr l (i + 3) }

/-- The screen write entry in five bytes of a payload; none where its action code is no action (R112, R177). -/
def screenWriteAt (l : List Byte) (i : Nat) : Option ScreenEntry :=
  (Action.ofCode (byteOr l i % 8)).map (fun a =>
    { valid := (l.getD i 0).getLsbD 7, mask := halfAt l (i + 1), pattern := halfAt l (i + 3), action := a })

/-- A row of three coefficients in six bytes. -/
def rowAt (l : List Byte) (i : Nat) : Tri Half := ⟨halfAt l i, halfAt l (i + 2), halfAt l (i + 4)⟩

/-- The rebalance write entry in twenty-one bytes of a payload; none where its valid byte is neither 0 nor 1, or its
ceiling lies outside 0..32767 (R75, R177). -/
def rebalWriteAt (l : List Byte) (i : Nat) : Option RebalEntry :=
  if byteOr l i ≤ 1 ∧ (halfAt l (i + 19)).toNat ≤ 32767 then
    some { valid := byteOr l i = 1, coef := ⟨rowAt l (i + 1), rowAt l (i + 7), rowAt l (i + 13)⟩,
           ceiling := (halfAt l (i + 19)).toNat }
  else none

/-- The policy write entry in five bytes of a payload; none where gap_budget, ramp_periods or max_nest lies outside
its range (R32, R177). -/
def policyWriteAt (l : List Byte) (i : Nat) : Option PolicyEntry :=
  let b := l.getD i 0
  let gap := (halfAt l (i + 1)).toNat
  let ramp := byteOr l (i + 3)
  let nest := byteOr l (i + 4)
  if 1 ≤ gap ∧ gap ≤ 4095 ∧ 1 ≤ ramp ∧ 1 ≤ nest ∧ nest ≤ 3 then
    some { restartAllowed := b.getLsbD 0, spareAllowed := b.getLsbD 1, blindAllowed := b.getLsbD 2, gapBudget := gap,
           rampPeriods := ramp, maxNest := nest }
  else none

/-- The configuration record in the twenty-three bytes of a SET_CONFIG payload (R157, R177). -/
def settingsAt (l : List Byte) : Settings :=
  { nNom := byteOr l 0, p := (halfAt l 1).toNat,
    bases := ⟨(halfAt l 3).toNat, (halfAt l 5).toNat, (halfAt l 7).toNat⟩,
    j := byteOr l 9, aTol := byteOr l 10, alignLimit := byteOr l 11, missLimit := byteOr l 12,
    refHoldLimit := byteOr l 13, inhibitHold := byteOr l 14, confirmLimit := byteOr l 15, settle := byteOr l 16,
    blindWait := byteOr l 17, clipLimit := byteOr l 18, leakInterval := (halfAt l 19).toNat,
    spareVdcMin := (halfAt l 21).toNat }

/-- Whether a value lies in a range that includes both ends. -/
def within (lo hi v : Nat) : Bool := decide (lo ≤ v ∧ v ≤ hi)

/-- Whether each of the seventeen fields lies in its range, in the order of the table of R157; the bases are checked
against the record's own P. -/
def settingsChecks (c : Settings) : List Bool :=
  [within 2 8 c.nNom, within 100 4000 c.p, within 0 (2 * c.p - 1) c.bases.a, within 0 (2 * c.p - 1) c.bases.b,
   within 0 (2 * c.p - 1) c.bases.c, within 1 16 c.j, within 0 16 c.aTol, within 4 255 c.alignLimit,
   within 1 15 c.missLimit, within 1 15 c.refHoldLimit, within 1 63 c.inhibitHold, within 1 255 c.confirmLimit,
   within 0 63 c.settle, within 1 255 c.blindWait, within 1 15 c.clipLimit, within 1 1023 c.leakInterval,
   within 0 4095 c.spareVdcMin]

/-- The number of the first check that fails, counted from 1; none where every check holds. -/
def firstFailure (checks : List Bool) : Option Nat := (checks.findIdx? (fun c => !c)).map (fun i => i + 1)

end Sys2Proof.Machine
end

