-- ==== Sys2Proof/Machine/Readout.lean ====
section
/-! DEFINITION. What READ_TABLE and READ_LOG return: the headers and entries of every table, byte by byte (R71, R87,
R109, R137, R150, R153, R162, R177). -/

namespace Sys2Proof.Machine

/-- An optional one-byte field: 0xFF where absent (R174). -/
def optU8 (o : Option Nat) : List Byte := u8 (o.getD 0xFF)

/-- An optional two-byte unsigned field: 0xFFFF where absent (R174). -/
def optU16 (o : Option Nat) : List Byte := u16 (o.getD 0xFFFF)

/-- A ROSTER entry as read (R177); a mark bit is 1 for yes (DEDUCED, log 39). -/
def rosterBytes (e : RosterEntry) : List Byte :=
  u8 (128 * bit e.installed + e.role.code) ++ optU8 e.position ++ u8 e.rank ++ u8 e.linkDelay
    ++ u8 (16 * e.bypassOrder.code + e.contact.code) ++ half e.lastStatus ++ u16 e.vdc ++ u16 e.noteCount
    ++ u8 (e.clipBucket % 16 + 16 * bit e.ineligible + 32 * bit e.deferred + 64 * bit e.blind) ++ u8 e.latchCount
    ++ optU8 (e.insertionTarget.map (fun p => p.val))

/-- A SCREEN entry as stored (R177); the valid bit is 1 for yes (DEDUCED, log 39). -/
def screenBytes (e : ScreenEntry) : List Byte :=
  u8 (128 * bit e.valid + e.action.code) ++ half e.mask ++ half e.pattern

/-- A row of three coefficients. -/
def rowBytes (r : Tri Half) : List Byte := half r.a ++ half r.b ++ half r.c

/-- A REBALANCE entry as stored: the mark, not the derived validity (R74, R177). -/
def rebalBytes (e : RebalEntry) : List Byte :=
  u8 (bit e.valid) ++ rowBytes e.coef.a ++ rowBytes e.coef.b ++ rowBytes e.coef.c ++ u16 e.ceiling

/-- A POLICY entry (R177); a mark bit is 1 for yes (DEDUCED, log 39). -/
def policyBytes (e : PolicyEntry) : List Byte :=
  u8 (bit e.restartAllowed + 2 * bit e.spareAllowed + 4 * bit e.blindAllowed) ++ u16 e.gapBudget ++ u8 e.rampPeriods
    ++ u8 e.maxNest

/-- A NEST entry, with an absent policy coded 0xFF in its five bytes (R174, R177), or an empty entry (R153). The bytes
`present` and `policy present` are 1 for yes and 0 for no (DEDUCED, log 39); in an empty entry both are 0, and every
other field is absent and coded as R174 says (DEDUCED, log 44). -/
def nestBytes : Option Context → List Byte
  | some c =>
    u8 1 ++ half c.restartNumber ++ u8 c.interrupted.code ++ deficitBytes c.deficits ++ u8 c.motion.code
      ++ u16 c.gapCount ++ u8 (bit c.policy.isSome)
      ++ (match c.policy with
          | some p => policyBytes p
          | none => List.replicate 5 0xFF)
  | none => u8 0 ++ optU16 none ++ optU8 none ++ List.replicate 3 0xFF ++ optU8 none ++ optU16 none ++ u8 0
      ++ List.replicate 5 0xFF

/-- An ACTUATION entry, or an empty entry (R71, R177); the bit `issued` is 1 for yes (DEDUCED, log 39). In an empty
entry the port is absent and coded 0xFF, the unassigned bits 6..1 of byte 1 are 0 (R174), the bit `issued` is 0 and the
issue period 0, the code R177 gives an absent issue period (DEDUCED, log 44); the direction and the enqueue period are
free values (log 13). -/
def actuationBytes : Option Actuation → List Byte
  | some a =>
    u8 a.port.val ++ u8 (a.dir.code + 128 * bit a.issued.isSome) ++ u32 a.enqueued.toNat
      ++ u32 ((a.issued.map (fun i => i.toNat)).getD 0)
  | none =>
    optU8 none ++ u8 (bit Config.emptyActuationClosed) ++ u32 Config.emptyActuationEnqueued.toNat ++ u32 0

/-- The supply history byte: bit 0 newest, bit 7 the effective supply (R177; log 17). -/
def supplyByte (h : SupplyHistory) : Nat :=
  bit h.newest + 2 * bit h.middle + 4 * bit h.oldest + 128 * bit h.effective

/-- The kind, value and direction fields of a frame plan in the CARRIER readout; an absent load direction is coded
0xFF (R109, R174, R177; log 13). A direction is 0 up and 1 down, as in the CMD frame (DEDUCED, log 39). -/
def planBytes : Plan → List Byte
  | .nothing => u8 0 ++ half Config.noPlanValue ++ [0xFF]
  | .trim t => u8 1 ++ s16 t ++ [0xFF]
  | .load c d => u8 2 ++ u16 c ++ u8 (bit d)

/-- A CARRIER entry; an absent phase error is coded 0x8000 (R109, R174, R177). The byte `aligned mark` is 1 for yes and
0 for no (DEDUCED, log 39). -/
def carrierBytes (c : CarrierPort) : List Byte :=
  optU16 c.target ++ optU16 (c.capture.map (fun q => q.raw)) ++ optU16 (c.capture.map (fun q => q.corrected))
    ++ (match c.lastError with
        | some e => s16 e
        | none => u16 0x8000)
    ++ planBytes c.sent ++ u8 c.passCount ++ u8 (bit c.aligned)

/-- A LINK entry (R137, R177); a mark bit is 1 for yes (DEDUCED, log 39). -/
def linkBytes (l : Link) : List Byte :=
  u8 l.state.code ++ u8 l.missCount ++ u8 l.linkingCount ++ optU8 (l.tagSent.map (fun t => t.toNat))
    ++ u8 (bit l.tagSent.isSome + 2 * bit l.accepted + 4 * bit l.forceOnce + 8 * bit l.forceContinuous)
    ++ u16 l.malformed ++ u16 l.wrongPort ++ u16 l.stale ++ u16 l.repeated ++ half l.framesAccepted
    ++ u8 ((l.lastCommand.map Command.code).getD 3)

/-- The CONFIG entry (R157, R177). -/
def settingsBytes (c : Settings) : List Byte :=
  u8 c.nNom ++ u16 c.p ++ u16 c.bases.a ++ u16 c.bases.b ++ u16 c.bases.c ++ u8 c.j ++ u8 c.aTol ++ u8 c.alignLimit
    ++ u8 c.missLimit ++ u8 c.refHoldLimit ++ u8 c.inhibitHold ++ u8 c.confirmLimit ++ u8 c.settle ++ u8 c.blindWait
    ++ u8 c.clipLimit ++ u16 c.leakInterval ++ u16 c.spareVdcMin

/-- Three signed values, A, B, C. -/
def triS16 (t : Tri Int) : List Byte := t.toList.flatMap s16

/-- Three unsigned two-byte values, A, B, C. -/
def triU16 (t : Tri Nat) : List Byte := t.toList.flatMap u16

/-- A compare pair. -/
def pairBytes (p : Pair) : List Byte := u16 p.cL ++ u16 p.cR

namespace State

/-- The TRANSFORM entry (R87, R177). The byte `fresh` is 1 for a fresh reference and 0 for a held one (DEDUCED, log 39). -/
def transformBytes (s : State) : List Byte :=
  rowBytes s.rtu.held ++ u8 (bit s.rtu.fresh) ++ optU8 (s.rtu.entryIndex.map (fun i => i.val)) ++ u16 s.rtu.gain
    ++ triS16 s.rtu.y ++ triS16 s.rtu.yRamped ++ triS16 s.rtu.m ++ s.rtu.pairs.toList.flatMap pairBytes
    ++ pairBytes (neutralPair s.ctu.pInForce) ++ triU16 s.rtu.xformClamps ++ triU16 s.rtu.cellClamps

/-- The CONTROL entry (R150, R177); a mark bit is 1 for yes (DEDUCED, log 39). -/
def controlBytes (s : State) : List Byte :=
  u8 (bit s.cli.lastSeq.isSome + 2 * bit s.cli.current.isSome) ++ optU8 (s.cli.lastSeq.map (fun q => q.toNat))
    ++ u8 s.cli.motion.code ++ u8 s.cli.holdCount ++ u24 s.cli.flags.toNat

/-- The three bytes of retry marks, bit n for port n, 1 where the mark is set (R177; logs 17, 39). -/
def retryBytes (s : State) : List Byte :=
  u24 ((allPorts.map (fun p => bit s.bau.retry[p.val] * 2 ^ p.val)).sum)

/-- The ACTUATION header (R71, R177). -/
def actuationHeader (s : State) : List Byte :=
  u8 s.bau.queue.length ++ u8 (supplyByte s.bau.supply) ++ u8 s.bau.settleCount ++ s.retryBytes

/-- The CARRIER header (R109, R177; log 13). The byte `window present` is 1 for yes and 0 for no (DEDUCED, log 39). -/
def carrierHeader (s : State) : List Byte :=
  u32 s.ctu.counter.toNat ++ u16 s.ctu.pInForce ++ triU16 s.ctu.bases ++ u8 (bit s.ctu.windowStart.isSome)
    ++ u32 (s.ctu.windowStart.getD Config.absentWindowStart).toNat
    ++ u8 (s.stringCells.countP (fun p => (s.cport p).aligned))

/-- The header of a table, by bank code (R153, R177). -/
def tableHeader (s : State) (t : Table) (bank : Nat) : List Byte :=
  match t with
  | .screen => if bank = 1 then u16 s.ssc.leakCount else []
  | .actuation => s.actuationHeader
  | .carrier => s.carrierHeader
  | .roster | .rebalance | .policy | .nest | .transform | .link | .control | .config => []

/-- One SCREEN entry of a bank; the ACTIVE bank adds the hit count (R112). -/
def screenRead (s : State) (bank : Nat) (i : Fin 16) : List Byte :=
  if bank = 1 then screenBytes s.screenActive[i.val] ++ u16 s.ssc.hits[i.val] else screenBytes s.screenStaged[i.val]

/-- One REBALANCE entry of a bank (R75). -/
def rebalRead (s : State) (bank : Nat) (i : Fin 64) : List Byte :=
  rebalBytes (if bank = 1 then s.rebalActive[i.val] else s.rebalStaged[i.val])

/-- One POLICY entry of a bank (R32). -/
def policyRead (s : State) (bank : Nat) (i : Fin 7) : List Byte :=
  policyBytes (if bank = 1 then s.policyActive[i.val] else s.policyStaged[i.val])

/-- One entry of a table, by bank code and index (R153, R177). Indices beyond a table's size do not pass step 4. -/
def tableEntry (s : State) (t : Table) (bank i : Nat) : List Byte :=
  match t with
  | .roster => if h : i < 24 then rosterBytes (s.entry ⟨i, h⟩) else []
  | .screen => if h : i < 16 then s.screenRead bank ⟨i, h⟩ else []
  | .rebalance => if h : i < 64 then s.rebalRead bank ⟨i, h⟩ else []
  | .policy => if h : i < 7 then s.policyRead bank ⟨i, h⟩ else []
  | .nest => nestBytes s.rsq.nest[i]?
  | .actuation => actuationBytes s.bau.queue[i]?
  | .transform => s.transformBytes
  | .carrier => if h : i < 24 then carrierBytes (s.cport ⟨i, h⟩) else []
  | .link => if h : i < 24 then linkBytes (s.link ⟨i, h⟩) else []
  | .control => s.controlBytes
  | .config => settingsBytes s.settings

/-- The entries of a table from a start index, ascending (R153). -/
def tableEntries (s : State) (t : Table) (bank start count : Nat) : List Byte :=
  (List.range count).flatMap (fun k => s.tableEntry t bank (start + k))

/-- The log records a READ_LOG gives: from the one named, ascending, up to the count or the newest (R162). -/
def logRead (s : State) (start : Half) (count : Nat) : List LogRecord :=
  (s.log.records.dropWhile (fun r => r.sequence != start)).take count

end State

end Sys2Proof.Machine
end

