-- ==== Sys2Proof/Machine/Requests.lean ====
section
/-! DEFINITION. The Management Agent: buffers, the service of a request and its checks, and what each request does
(chapter 9). -/

namespace Sys2Proof.Machine

/-- A failed check: the result and the detail (R152). -/
abbrev Reject := Result × Nat

/-- What a service answers: result, detail and the payload of a read answered DONE (R152). -/
structure Verdict where
  result : Result
  detail : Nat
  payload : List Byte
  deriving DecidableEq, Repr

/-- DONE, with detail 0 (R152). -/
def Verdict.done (payload : List Byte) : Verdict := { result := .done, detail := 0, payload := payload }

/-- A failed check's answer; its payload is empty (R152). -/
def Verdict.fail (r : Reject) : Verdict := { result := r.1, detail := r.2, payload := [] }

/-- A check that fails with a result unless a condition holds. -/
def require (c : Bool) (r : Result) (d : Nat) : Option Reject := if c then none else some (r, d)

/-- The first failed check, in the order listed (R152). -/
def firstReject (checks : List (Option Reject)) : Option Reject := checks.findSome? id

/-- The request codes (R176). -/
def codeReadTable : Nat := 1
@[inherit_doc codeReadTable] def codeWriteTable : Nat := 2
@[inherit_doc codeReadTable] def codeCommit : Nat := 3
@[inherit_doc codeReadTable] def codeSetConfig : Nat := 4
@[inherit_doc codeReadTable] def codeStart : Nat := 5
@[inherit_doc codeReadTable] def codeStop : Nat := 6
@[inherit_doc codeReadTable] def codeClear : Nat := 7
@[inherit_doc codeReadTable] def codeWarmReset : Nat := 8
@[inherit_doc codeReadTable] def codeForceZero : Nat := 9
@[inherit_doc codeReadTable] def codeRelease : Nat := 10
@[inherit_doc codeReadTable] def codeRelink : Nat := 11
@[inherit_doc codeReadTable] def codeReadLog : Nat := 12

namespace State

/-! ### Buffers and replies -/

/-- A request buffer by number. -/
def buffer (s : State) (b : Fin 2) : Buffer := if b = 0 then s.mga.buf0 else s.mga.buf1

/-- A request buffer set. -/
def setBuffer (s : State) (b : Fin 2) (v : Buffer) : State :=
  s.updMga (fun m => if b = 0 then { m with buf0 := v } else { m with buf1 := v })

/-- A request placed in a buffer: it becomes WAITING with its arrival order (R151). -/
def placeRequest (s : State) (b : Fin 2) (f : MgtFrame) : State :=
  (s.setBuffer b (.waiting f s.mga.arrivals)).updMga (fun m => { m with arrivals := m.arrivals + 1 })

/-- A well-formed MGT frame: it takes buffer 0 if FREE, else buffer 1 if FREE, else it is dropped (R151). R163 says that
of two arrivals with one buffer FREE each takes a buffer; the second does so here only if a reply sent in between has
freed one, and is dropped otherwise, as R151 says (DEDUCED, log 43). -/
def receiveMgt (s : State) (f : MgtFrame) : State :=
  if !s.mga.buf0.full then s.placeRequest 0 f
  else if !s.mga.buf1.full then s.placeRequest 1 f
  else s.raise .reqDropped

/-- The oldest WAITING request with its buffer (R152). -/
def oldestWaiting? (s : State) : Option (Fin 2 × MgtFrame) :=
  match s.mga.buf0, s.mga.buf1 with
  | .waiting f m, .waiting g n => if m ≤ n then some (0, f) else some (1, g)
  | .waiting f _, _ => some (0, f)
  | _, .waiting g _ => some (1, g)
  | _, _ => none

/-- The request the next service serves, with its buffer; none while the warm reset pending mark is set (R152). -/
def nextRequest? (s : State) : Option (Fin 2 × MgtFrame) := if s.mga.warmPending then none else s.oldestWaiting?

/-- The reply to a request (R152). -/
def replyTo (f : MgtFrame) (v : Verdict) : Reply :=
  { tag := f.tag, code := f.code, result := v.result, detail := BitVec.ofNat 8 v.detail, payload := v.payload }

/-- The reply composed and placed at the tail of the upstream list, and the buffer ANSWERED (R152). -/
def answer (s : State) (b : Fin 2) (f : MgtFrame) (v : Verdict) : State :=
  (s.setBuffer b (match s.buffer b with
    | .waiting g n => .answered g n
    | other => other)).updCli (fun c => { c with upstream := c.upstream ++ [.reply b (replyTo f v)] })

/-- Service of the oldest waiting request where its code is one the row serves: a failed check changes nothing but the
reply and the buffer, a request that passes has its effect (R152). Where there is no such request the event does not
take place (log 3). -/
def serve (s : State) (sel : Nat → Bool) (checks : State → MgtFrame → Option Reject)
    (effect : State → MgtFrame → State × List Byte) : State :=
  match s.nextRequest? with
  | some (b, f) =>
    if sel f.code.toNat then
      match checks s f with
      | some r => s.answer b f (Verdict.fail r)
      | none => (effect s f).1.answer b f (Verdict.done (effect s f).2)
    else s
  | none => s

/-! ### READ_TABLE (R153) -/

/-- The size of the reply payload a DONE would carry (R177). -/
def readSize (t : Table) (bank count : Nat) : Nat := 4 + t.headerSize bank + count * t.entrySize bank

/-- The table a payload names; none where it holds no table byte or the code is unknown. -/
def tableOf (f : MgtFrame) : Option Table := (byteAt f.payload 0).bind Table.ofCode

/-- Step 2 for a table (R152): the code named is known. A payload without the byte passes on to step 5 (log 9). -/
def checkTable (f : MgtFrame) : Option Reject := require (f.payload.isEmpty || (tableOf f).isSome) .badTable 0

/-- Step 4 for start and count at a payload offset: count in 1..8 and start + count within the table (R153). -/
def checkSpan (f : MgtFrame) (at_ : Nat) : Option Reject :=
  match tableOf f, byteAt f.payload at_, byteAt f.payload (at_ + 1) with
  | some t, some start, some count =>
    require (within 1 8 count && decide (start + count ≤ t.entries)) .badIndex 0
  | _, _, _ => none

/-- The checks of READ_TABLE (R152, R153, R177). -/
def checkReadTable (_s : State) (f : MgtFrame) : Option Reject :=
  let bank := byteOr f.payload 1
  firstReject
    [checkTable f, checkSpan f 2,
     require (f.payload.length == 4 && (tableOf f).any (fun t =>
       decide (readSize t bank (byteOr f.payload 3) ≤ 120))) .badLength 0,
     require (!(tableOf f).any Table.banked || decide (bank ≤ 1)) .badValue 0]

/-- The payload of a READ_TABLE answered DONE (R153, R177). -/
def readTablePayload (s : State) (f : MgtFrame) : List Byte :=
  match tableOf f with
  | some t =>
    let bank := byteOr f.payload 1
    f.payload.take 4 ++ s.tableHeader t bank
      ++ s.tableEntries t bank (byteOr f.payload 2) (byteOr f.payload 3)
  | none => []

/-! ### WRITE_TABLE (R19, R32, R75, R112, R154) -/

/-- The number of entries a WRITE_TABLE carries. -/
def writeCount (f : MgtFrame) : Nat := byteOr f.payload 2

/-- The offset in the payload of an entry of a write. -/
def writeOffset (size k : Nat) : Nat := 3 + k * size

/-- The write entry a roster write makes for a port, if any. -/
def rosterWriteFor (f : MgtFrame) (p : Port) : Option RosterWrite :=
  let start := byteOr f.payload 1
  if start ≤ p.val ∧ p.val < start + writeCount f then
    some (rosterWriteAt f.payload (writeOffset 4 (p.val - start)))
  else none

/-- Whether a port would be ACTIVE with the whole write applied (R19). -/
def activeAfterWrite (s : State) (f : MgtFrame) (p : Port) : Bool :=
  match rosterWriteFor f p with
  | some w => w.role == some .active
  | none => (s.entry p).role == .active

/-- Whether a roster write entry is valid on its own (R19). -/
def rosterWriteOk (w : RosterWrite) : Bool :=
  (match w.role with
   | some .absent => !w.installed
   | some .active => w.installed && within 0 7 w.position
   | some .spare | some .bypassed => w.installed
   | some .isolating | some .failed | none => false)
  && within 0 7 w.rank && within 0 63 w.linkDelay

/-- Whether the entry a roster write makes for a port is valid: on its own, and its phase would hold no more ACTIVE
cells than N_nom (R19). -/
def rosterEntryOk (s : State) (f : MgtFrame) (p : Port) : Bool :=
  match rosterWriteFor f p with
  | some w =>
    rosterWriteOk w && (w.role != some .active ||
      decide ((phasePorts (phaseOf p)).countP (s.activeAfterWrite f) ≤ s.settings.nNom))
  | none => true

/-- Whether entry k of a write is valid (R19, R32, R75, R112). -/
def writeEntryOk (s : State) (f : MgtFrame) (t : Table) (k : Nat) : Bool :=
  match t with
  | .roster =>
    if h : byteOr f.payload 1 + k < 24 then s.rosterEntryOk f ⟨byteOr f.payload 1 + k, h⟩ else true
  | .screen => (screenWriteAt f.payload (writeOffset 5 k)).isSome
  | .rebalance => (rebalWriteAt f.payload (writeOffset 21 k)).isSome
  | .policy => (policyWriteAt f.payload (writeOffset 5 k)).isSome
  | .nest | .actuation | .transform | .carrier | .link | .control | .config => true

/-- Step 6 of WRITE_TABLE: the first invalid entry in ascending offset (R154). -/
def checkEntries (s : State) (f : MgtFrame) : Option Reject :=
  match tableOf f with
  | some t =>
    ((List.range (writeCount f)).find? (fun k => !s.writeEntryOk f t k)).map (fun k => (.badValue, k))
  | none => none

/-- The checks of WRITE_TABLE (R152, R154, R177). -/
def checkWriteTable (s : State) (f : MgtFrame) : Option Reject :=
  firstReject
    [require (f.payload.isEmpty || ((tableOf f).bind Table.writeSize).isSome) .badTable 0,
     require (tableOf f != some .roster || s.mode == .standby) .refusedMode 0, checkSpan f 1,
     require (((tableOf f).bind Table.writeSize).any (fun n =>
       f.payload.length == 3 + writeCount f * n && decide (3 + writeCount f * n ≤ 120))) .badLength 0,
     s.checkEntries f]

/-- A roster entry once a valid write entry is stored (R19). -/
def writtenEntry (w : RosterWrite) (e : RosterEntry) : RosterEntry :=
  { e with
    installed := w.installed
    role := w.role.getD e.role
    position := if w.role = some .active then some w.position else none
    rank := w.rank
    linkDelay := w.linkDelay
    noteCount := 0
    clipBucket := 0
    latchCount := 0
    ineligible := false
    insertionTarget := none
    deferred := false
    blind := false }

/-- A port's link once a write entry is stored: LINKING on an installation, IDLE on a removal (R19, R125). -/
def writtenLink (p : Port) (was now : Bool) (l : Link) : Link :=
  if !was && now then l.toLinking else if was && !now then l.toIdle p else l

/-- A valid roster write stored in one event (R19). -/
def writeRoster (s : State) (f : MgtFrame) : State :=
  (s.mapLinks (fun p l =>
    match rosterWriteFor f p with
    | some w => writtenLink p (s.entry p).installed w.installed l
    | none => l)).mapEntries (fun p e =>
    match rosterWriteFor f p with
    | some w => writtenEntry w e
    | none => e)

/-- One entry of a staged bank replaced where the write covers its index. -/
def stagedEntry {α : Type} (f : MgtFrame) (size : Nat) (read : List Byte → Nat → Option α) (i : Nat) (old : α) : α :=
  let start := byteOr f.payload 1
  if start ≤ i ∧ i < start + writeCount f then (read f.payload (writeOffset size (i - start))).getD old else old

/-- A valid write stored: in the roster, or in the staged bank of the table named (R154). -/
def writeStore (s : State) (f : MgtFrame) : State :=
  match tableOf f with
  | some .roster => s.writeRoster f
  | some .screen =>
    { s with screenStaged := Vector.ofFn (fun i => stagedEntry f 5 screenWriteAt i.val s.screenStaged[i.val]) }
  | some .rebalance =>
    { s with rebalStaged := Vector.ofFn (fun i => stagedEntry f 21 rebalWriteAt i.val s.rebalStaged[i.val]) }
  | some .policy =>
    { s with policyStaged := Vector.ofFn (fun i => stagedEntry f 5 policyWriteAt i.val s.policyStaged[i.val]) }
  | _ => s

/-! ### COMMIT (R155) -/

/-- The groups a COMMIT names. -/
def commitGroups (f : MgtFrame) : List Group := ((byteAt f.payload 0).bind groupsOf).getD []

/-- Whether a COMMIT has PERIOD timing. -/
def periodTiming (f : MgtFrame) : Bool := byteOr f.payload 1 == 0

/-- Step 7 of COMMIT: in RUN a PERIOD commit that names REBALANCE needs a valid staged entry at the present tuple; the
detail is the index, or 255 where the tuple selects none (R155). -/
def checkRebalance (s : State) (f : MgtFrame) : Option Reject :=
  if s.mode = .run ∧ periodTiming f ∧ (commitGroups f).contains .rebalance ∧ s.stagedLookup.isNone then
    some (.refusedState, ((rebalIndex s.deficits).map (fun i => i.val)).getD 255)
  else none

/-- The checks of COMMIT (R152, R155). -/
def checkCommit (s : State) (f : MgtFrame) : Option Reject :=
  firstReject
    [require (f.payload.isEmpty || ((byteAt f.payload 0).bind groupsOf).isSome) .badTable 0,
     require (f.payload.length == 2) .badLength 0, require (decide (byteOr f.payload 1 ≤ 1)) .badValue 0,
     s.checkRebalance f]

/-- A COMMIT taken: in STANDBY the groups are copied at once and their marks cleared; in the other modes the marks of
the timing are set (R155). -/
def commitStore (s : State) (f : MgtFrame) : State :=
  let gs := commitGroups f
  if s.mode = .standby then
    (s.copyBanks gs).updMga (fun m =>
      { m with periodMarks := m.periodMarks.setAll gs false, recoveryMarks := m.recoveryMarks.setAll gs false })
  else if periodTiming f then s.updMga (fun m => { m with periodMarks := m.periodMarks.setAll gs true })
  else s.updMga (fun m => { m with recoveryMarks := m.recoveryMarks.setAll gs true })

/-! ### SET_CONFIG (R157) -/

/-- Step 7 of SET_CONFIG: the first phase whose ACTIVE cells exceed the new N_nom (R157). -/
def checkNominal (s : State) (n : Nat) : Option Reject :=
  (firstFailure (Phase.list.map (fun x => decide (s.activeCount x ≤ n)))).map (fun d => (.refusedState, d))

/-- The checks of SET_CONFIG (R152, R157). -/
def checkSetConfig (s : State) (f : MgtFrame) : Option Reject :=
  firstReject
    [require (s.mode == .standby) .refusedMode 0, require (f.payload.length == 23) .badLength 0,
     (firstFailure (settingsChecks (settingsAt f.payload))).map (fun d => (.badValue, d)),
     s.checkNominal (settingsAt f.payload).nNom]

/-! ### START, STOP, CLEAR, WARM_RESET (R158 to R160) -/

/-- A request with an empty payload. -/
def checkEmpty (f : MgtFrame) : Option Reject := require f.payload.isEmpty .badLength 0

/-- START check 5 for one phase: 1..N_nom ACTIVE cells, and positions exactly 0..N−1 once each (R20). -/
def phaseReady (s : State) (x : Phase) : Bool :=
  within 1 s.settings.nNom (s.activeCount x)
    && (s.phaseString x).map (fun p => (s.entry p).position) == (List.range (s.stringLength x)).map some

/-- START check 7 for one port: order and contact equal the standing order. The check fails too while an actuation for
any port is in flight (R20). -/
def bypassReady (s : State) (p : Port) : Bool :=
  match (s.entry p).standing with
  | some o => (s.entry p).bypassOrder == o && (s.entry p).contact == o.contact
  | none => true

/-- The nine checks of START (R20, R158). -/
def startChecks (s : State) : List Bool :=
  [s.mode == .standby, s.lines.safetyStopN, decide (s.cli.holdCount < s.settings.refHoldLimit),
   allPorts.all (fun p => (s.entry p).role != .failed),
   Phase.list.all s.phaseReady && allPorts.all (fun p =>
     (s.entry p).role != .isolating && ((s.entry p).role != .spare || (s.entry p).insertionTarget.isNone)),
   allPorts.all (fun p => (s.entry p).role != .active || (s.link p).state == .up),
   allPorts.all s.bypassReady && s.inFlight?.isNone, (rebalIndex s.deficits).isSome, s.activeLookup.isSome]

/-- The checks of START (R152, R158). -/
def checkStart (s : State) (f : MgtFrame) : Option Reject :=
  firstReject [checkEmpty f, (firstFailure s.startChecks).map (fun d => (.refusedState, d))]

/-- A START that passes: the restart number counts, the gap count is 0, and the part enters RUN with stage ALIGN and
an empty nest list; entry to RUN renumbers the strings (R18, R31). -/
def startRun (s : State) : State :=
  (((s.renumber.updRsq (fun r =>
    { r with stage := .align, nest := [], gapCount := 0, restartNumber := r.restartNumber + 1 })).closeWindow).setMode
      .run)

/-- The checks of STOP: served in RUN (R159). -/
def checkStop (s : State) (f : MgtFrame) : Option Reject :=
  firstReject [require (s.mode == .run) .refusedMode 0, checkEmpty f]

/-- The checks of CLEAR: served in TRIPPED and SAFE_STOP; in SAFE_STOP with SAFETY_STOP_N low it is refused with
detail 2 (R159). -/
def checkClear (s : State) (f : MgtFrame) : Option Reject :=
  firstReject
    [require (s.mode == .tripped || s.mode == .safeStop) .refusedMode 0, checkEmpty f,
     require (s.mode != .safeStop || s.lines.safetyStopN) .refusedState 2]

/-- The checks of WARM_RESET: served outside RUN (R160). -/
def checkWarmReset (s : State) (f : MgtFrame) : Option Reject :=
  firstReject [require (s.mode != .run) .refusedMode 0, checkEmpty f]

/-- The warm reset pending mark set (R160). -/
def setWarmPending (s : State) : State := s.updMga (fun m => { m with warmPending := true })

/-! ### FORCE_ZERO, RELEASE, RELINK (R161) -/

/-- The port a payload names. -/
def portOf (f : MgtFrame) : Option Port :=
  (byteAt f.payload 0).bind (fun n => if h : n < 24 then some ⟨n, h⟩ else none)

/-- Step 4 for a port (R161). A payload without the byte passes on to step 5 (log 9). -/
def checkPort (f : MgtFrame) : Option Reject := require (f.payload.isEmpty || (portOf f).isSome) .badIndex 0

/-- The checks of FORCE_ZERO (R152, R161). -/
def checkForceZero (s : State) (f : MgtFrame) : Option Reject :=
  firstReject
    [checkPort f, require (f.payload.length == 2) .badLength 0, require (decide (byteOr f.payload 1 ≤ 1)) .badValue 0,
     require ((portOf f).any (fun p => (s.link p).state != .idle)) .refusedState 0]

/-- A FORCE_ZERO taken: the mark of its kind is set (R133). -/
def forceZero (s : State) (f : MgtFrame) : State :=
  match portOf f with
  | some p =>
    s.updLink p (fun l =>
      if byteOr f.payload 1 = 0 then { l with forceOnce := true } else { l with forceContinuous := true })
  | none => s

/-- The checks of RELEASE (R152, R161). -/
def checkRelease (_s : State) (f : MgtFrame) : Option Reject :=
  firstReject [checkPort f, require (f.payload.length == 1) .badLength 0]

/-- A RELEASE taken: the force-continuous mark is cleared (R133). -/
def releasePort (s : State) (f : MgtFrame) : State :=
  match portOf f with
  | some p => s.updLink p (fun l => { l with forceContinuous := false })
  | none => s

/-- The checks of RELINK: the port is LOST (R128, R161). -/
def checkRelink (s : State) (f : MgtFrame) : Option Reject :=
  firstReject
    [checkPort f, require (f.payload.length == 1) .badLength 0,
     require ((portOf f).any (fun p => (s.link p).state == .lost)) .refusedState 0]

/-- A RELINK taken: the port enters LINKING (R125, R128). -/
def relinkPort (s : State) (f : MgtFrame) : State :=
  match portOf f with
  | some p => s.updLink p Link.toLinking
  | none => s

/-! ### READ_LOG (R162) -/

/-- The checks of READ_LOG: a count of 1..4 and a start sequence that is held (R162). -/
def checkReadLog (s : State) (f : MgtFrame) : Option Reject :=
  firstReject
    [require (((byteAt f.payload 2).map (within 1 4)).getD true) .badIndex 0,
     require (decide (f.payload.length < 2) || s.log.records.any (fun r => r.sequence == halfAt f.payload 0))
       .badIndex 0,
     require (f.payload.length == 3) .badLength 0]

/-- The payload of a READ_LOG answered DONE (R162, R177). -/
def readLogPayload (s : State) (f : MgtFrame) : List Byte :=
  let rs := s.logRead (halfAt f.payload 0) (byteOr f.payload 2)
  u8 rs.length ++ rs.flatMap logBytes

/-! ### Replies sent -/

/-- The upstream list once a frame that meets a condition, and all before it, have been sent. -/
def sentThrough (c : UpFrame → Bool) (l : List UpFrame) : List UpFrame :=
  if l.any c then (l.dropWhile (fun f => !c f)).drop 1 else l

/-- The oldest reply on the upstream list (R148). -/
def oldestReply? (s : State) : Option (Fin 2 × Reply) :=
  s.cli.upstream.findSome? (fun f =>
    match f with
    | .reply b r => some (b, r)
    | .digest _ => none)

/-- Whether a reply is the DONE of a WARM_RESET (R160). -/
def isWarmReply (r : Reply) : Bool := r.code.toNat == codeWarmReset && r.result == .done

/-- Whether a frame on the upstream list is the DONE of a WARM_RESET (R160). -/
def isWarmFrame : UpFrame → Bool
  | .reply _ r => isWarmReply r
  | .digest _ => false

/-- The last byte of the oldest reply is sent: it leaves the list with the digests before it, and its buffer returns
to FREE (R148, R151). -/
def sendReply (s : State) (b : Fin 2) : State :=
  (s.updCli (fun c => { c with upstream := sentThrough (fun f => !f.isDigest) c.upstream })).setBuffer b .free

end State

end Sys2Proof.Machine
end

