-- ==== Sys2Proof/Machine/Resets.lean ====
section
/-! DEFINITION. The two resets, the safety stop input and the levels of the lines (R53, R160, R168, R170). -/

namespace Sys2Proof.Machine

namespace State

/-- The model's counters of the free values at the ports stay over a pin reset, so that no free value is used twice
(log 7). -/
def keepMoments (s t : State) : State := t.mapLinks (fun p l => { l with moments := (s.link p).moments })

/-- RESET_N falls: every block takes its pin reset values; the levels of the other inputs stay (R170). -/
def pinReset (s : State) : State := s.keepMoments (State.atPinReset { s.lines with resetN := false } s.pending)

/-- The mode a reset leaves: SAFE_STOP where SAFETY_STOP_N is low, STANDBY otherwise (R170). -/
def modeByLine (s : State) : Mode := if s.lines.safetyStopN then .standby else .safeStop

/-- RESET_N rises: every block has been held at its pin reset values, the mode follows SAFETY_STOP_N, and the master
carrier starts from position 0 (R93, R170). -/
def riseReset (s : State) : State :=
  s.keepMoments ((State.atPinReset { s.lines with resetN := true } s.pending).setMode s.modeByLine)

/-- A port's link record after a warm reset (R124). -/
def warmLink (p : Port) (e : RosterEntry) (l : Link) : Link :=
  { l.cut p with state := if e.installed then .linking else .idle, missCount := 0, linkingCount := 0, tagSent := none,
                 accepted := false, forceOnce := false, forceContinuous := false }

/-- A roster entry after a warm reset (R3). -/
def warmEntry (e : RosterEntry) : RosterEntry :=
  { e with clipBucket := 0, insertionTarget := none, deferred := false }

/-- A port's carrier record after a warm reset (R108); its target is kept until the next period start (log 16). -/
def warmCport (c : CarrierPort) : CarrierPort :=
  { c with lastError := none, capture := none, sent := .nothing, passCount := 0, aligned := false }

/-- The Restart Sequencer after a warm reset: the restart number is kept (R22). -/
def warmSequencer (r : Sequencer) : Sequencer := { Sequencer.afterPin with restartNumber := r.restartNumber }

/-- The Bypass Actuation Unit after a warm reset: retry marks are kept, and set for the port in flight (R70). -/
def warmBypass (s : State) (b : Bypass) : Bypass :=
  { Bypass.afterPin with
    retry := match s.inFlight? with
      | some a => b.retry.set a.port.val true
      | none => b.retry }

/-- The Reference Transform Unit after a warm reset (R77, R87). -/
def warmTransform (t : Transform) : Transform := { t with held := Tri.all 0, fresh := false }

/-- Whether a buffer holds a request not yet served. -/
def isWaiting : Buffer → Bool
  | .waiting _ _ => true
  | .free | .answered _ _ => false

/-- Whether a WAITING request is discarded by a warm reset (R160). -/
def warmDrops (s : State) : Bool := isWaiting s.mga.buf0 || isWaiting s.mga.buf1

/-- The Control Link Interface after a warm reset: what stands behind the WARM_RESET reply is kept (R149). -/
def warmControl (limit : Nat) (c : Control) : Control :=
  { c with lastSeq := none, current := none, holdCount := limit, upstream := sentThrough isWarmFrame c.upstream }

/-- The Management Agent after a warm reset: both buffers FREE and the mark cleared (R160). -/
def warmAgent (m : Agent) : Agent := { m with buf0 := .free, buf1 := .free, warmPending := false }

/-- The mode change of a warm reset: entry to SAFE_STOP from another mode orders the urgent BLOCK of R134, and
departure from STANDBY renumbers the strings (R18); neither arises in a run, since a low line has already led to
SAFE_STOP (log 23). -/
def warmMode (s : State) : State :=
  if s.modeByLine = .safeStop ∧ s.mode ≠ .safeStop then (s.urgentBlock.renumber).setMode .safeStop
  else s.setMode s.modeByLine

/-- The warm reset takes effect: every block takes its warm reset values, in one event (R160, R170). -/
def warmReset (s : State) : State :=
  let t := s.warmMode
  let u := ((t.mapLinks (fun p l => warmLink p (t.entry p) l)).mapEntries (fun _ e => warmEntry e)).mapCports
    (fun _ c => warmCport c)
  ((((((u.updRsq warmSequencer).updBau u.warmBypass).updRtu warmTransform).updCtu
    (fun c => { c with windowStart := none })).updSsc (fun c => { c with leakCount := 0 })).updCli
      (warmControl s.settings.refHoldLimit)).raiseIf s.warmDrops .reqDropped |>.updMga warmAgent

/-- The warm reset takes effect where it is pending (R160). -/
def warmEffect (s : State) : State := if s.mga.warmPending then s.warmReset else s

/-- The oldest reply has been sent: its buffer is free again, or, where it is the reply of a pending warm reset, the
warm reset takes effect (R151, R160; log 10). -/
def replyEnds (s : State) : State :=
  match s.oldestReply? with
  | some (b, r) => if s.mga.warmPending && isWarmReply r then s.warmReset else s.sendReply b
  | none => s

/-- The frames of the upstream list up to its last digest, which have all been sent by the next period start (R148,
log 8). -/
def dueUpstream (s : State) : List UpFrame := (s.cli.upstream.reverse.dropWhile (fun f => !f.isDigest)).reverse

/-- The replies placed before a digest of the list are sent, one after another, each with what the end of a reply does
(R148, R151, R160; log 8). -/
def sendDue (s : State) : State := (s.dueUpstream.filter (fun f => !f.isDigest)).foldl (fun t _ => t.replyEnds) s

/-- SAFETY_STOP_N falls: a record, and the mode becomes SAFE_STOP with all that goes with it (R168). -/
def fallSafety (s : State) : State :=
  let t := s.setLines { s.lines with safetyStopN := false }
  match s.mode with
  | .run => (t.writeLog (t.entryNow .safetyStop none)).departRun .safeStop
  | .standby => (((t.writeLog (t.entryNow .safetyStop none)).renumber).setMode .safeStop).urgentBlock
  | .tripped => ((t.writeLog (t.entryNow .safetyStop none)).setMode .safeStop).urgentBlock
  | .safeStop => t

end State

end Sys2Proof.Machine
end

