-- ==== Sys2Proof/Machine/Sequencing.lean ====
section
/-! DEFINITION. The Restart Sequencer's response to a period start: the gap step and the stage progression
(chapter 2). -/

namespace Sys2Proof.Machine

namespace State

/-- Whether RESUME is due: AWAIT_GRANT with the grant pending (R28, R46). -/
def resumeDue (s : State) : Bool := s.rsq.stage == .awaitGrant && s.rsq.grantPending

/-- Whether the gap step counts: an episode is open, the stage is one of the five gap stages, and RESUME is not due
(R46). -/
def gapRuns (s : State) : Bool := !s.rsq.nest.isEmpty && s.inGapStage && !s.resumeDue

/-- Whether the gap step trips the part: the count it advances reaches the episode policy's gap_budget (R46). -/
def gapExpires (s : State) : Bool :=
  s.mode == .run && s.gapRuns && decide (s.governingPolicy.gapBudget ≤ s.rsq.gapCount + 1)

/-- The gap step (R46). An episode that a latch opened earlier in the same period start, by a lost port or a closed
alignment window, is open already, and this step counts it (DEDUCED, log 35). -/
def gapStep (s : State) : State :=
  if s.gapRuns then s.updRsq (fun r => { r with gapCount := r.gapCount + 1 }) else s

/-- The ramp gain of RESUME period k of R: floor(1024·k/R) (R48). -/
def rampGainAt (k r : Nat) : Nat := 1024 * k / r

/-- Entry to ISOLATE: the settle count is 0 and spare selection runs (R25, R68). -/
def enterIsolate (s : State) : State :=
  ((s.updRsq (fun r => { r with stage := .isolate })).updBau (fun b => { b with settleCount := 0 })).selectSpares

/-- The progression in INHIBIT: the count increases, except at the period start at which INHIBIT was entered, and
ISOLATE is entered when it reaches inhibit_hold (R24). -/
def inhibitProgress (s : State) : State :=
  if s.ps.inhibitEntered then s
  else
    let t := s.updRsq (fun r => { r with inhibitCount := r.inhibitCount + 1 })
    if s.settings.inhibitHold ≤ s.rsq.inhibitCount + 1 then t.enterIsolate else t

/-- REMAP entered (R26, R68). -/
def enterRemap (s : State) : State := s.updRsq (fun r => { r with stage := .remap })

/-- ALIGN entered: alignment begins again at this entry (R27). -/
def enterAlign (s : State) : State := (s.updRsq (fun r => { r with stage := .align })).closeWindow

/-- The cells marked deferred, ascending. -/
def deferredCells (s : State) : List Port :=
  allPorts.filter (fun p => (s.entry p).role = .active ∧ (s.entry p).deferred)

/-- Deferred cells accepted together as one nested latch (R39, R42, R44). -/
def acceptDeferred (s : State) (ps : List Port) : State :=
  let t := ps.foldl makeIsolating s
  match ps.find? (fun p => s.blindForbidden p s.governingPolicy) with
  | some p => t.requestTrip { cause := .linkLostNoBlind, port := some p }
  | none =>
    if s.governingPolicy.maxNest < s.nestDepth + 1 then t.requestTrip { cause := .nestLimit, port := ps.head? }
    else t.push .remap s.rsq.gapCount none

/-- REMAP completion: rebuild, RECOVERY commits, lookup, and then ALIGN, or INHIBIT for deferred cells (R26). -/
def remapCompletion (s : State) : State :=
  let t := s.rebuild.applyRecovery
  match t.activeLookup with
  | none => t.requestTrip { cause := .noRebalance, deficits := some t.deficits }
  | some _ => if t.deferredCells = [] then t.enterAlign else t.acceptDeferred t.deferredCells

/-- AWAIT_GRANT entered; the window start is absent outside ALIGN (R105, R109). -/
def enterAwaitGrant (s : State) : State := (s.updRsq (fun r => { r with stage := .awaitGrant })).closeWindow

/-- RESUME entered: the ramp length is fixed, k is 1, and the grant pending is cleared (R28, R29, R48). -/
def enterResume (s : State) : State :=
  s.updRsq (fun r =>
    { r with stage := .resume, grantPending := false, resumeLength := s.governingPolicy.rampPeriods, resumeIndex := 1,
             rampGain := rampGainAt 1 s.governingPolicy.rampPeriods })

/-- RESUME ends: NORMAL is entered at g = 1024; an open episode ends with a RECOVERED record (R30). -/
def endResume (s : State) : State :=
  let t := s.updRsq (fun r => { r with stage := .normal, rampGain := 1024 })
  if s.rsq.nest.isEmpty then t
  else (t.writeLog { t.entryNow .recovered none with deficits := some t.deficits }).updRsq (fun r => { r with nest := [] })

/-- The progression in RESUME: k increases while it is below R; found equal to R, the ramp ends (R29, R30, R48). -/
def resumeProgress (s : State) : State :=
  if s.rsq.resumeIndex < s.rsq.resumeLength then
    s.updRsq (fun r =>
      { r with resumeIndex := r.resumeIndex + 1, rampGain := rampGainAt (r.resumeIndex + 1) r.resumeLength })
  else s.endResume

/-- The stage progression of a period start (R23, section 2.2). -/
def stageProgress (s : State) : State :=
  match s.rsq.stage with
  | .normal => s
  | .inhibit => s.inhibitProgress
  | .isolate => if s.ps.settleDone then s.enterRemap else s
  | .remap => s.remapCompletion
  | .align => if s.allAligned then s.enterAwaitGrant else s
  | .awaitGrant => if s.rsq.grantPending then s.enterResume else s
  | .resume => s.resumeProgress

/-- RSQ: the gap step, which may trip the part, then the stage progression (R23, R46). -/
def sequencerStep (s : State) : State :=
  if s.mode = .run then
    if s.gapExpires then s.gapStep.requestTrip { cause := .gapExpired }
    else s.gapStep.stageProgress
  else s

end State

end Sys2Proof.Machine
end

