-- ==== Sys2Proof/Machine/PeriodStart.lean ====
section
/-! DEFINITION. The period start: its beginning, the blocks' steps with the orders the rules fix between them, and its
end (R9, R23, R52, R94; logs 1, 2, 25). -/

namespace Sys2Proof.Machine

namespace State

/-- The carrier at a period start: the counter increments, the cycle that begins takes P and the bases from the record
(R94, R95). -/
def startCycle (s : State) : State :=
  s.updCtu (fun c => { c with position := 0, counter := c.counter + 1, pInForce := s.settings.p,
                              bases := s.settings.bases })

/-- A port's link record at the beginning of a period start: the frames sent in full have left its list (R136, log 7),
and the status-accepted mark is clear for the period that begins, having been noted for the miss decision (R126). -/
def startLink (p : Port) (l : Link) : Link := { l.takeSent p with accepted := false }

/-- The record of a period start at its beginning: which ports answered in the period just ended, and its stage. -/
def startProgress (s : State) : PeriodProgress :=
  { underWay := true, taken := [], judged := [], answered := Vector.ofFn (fun p : Port => (s.link p).accepted),
    stageEnded := s.rsq.stage, settleDone := false, inhibitEntered := false, failed := none, selectionDue := false }

/-- The first acts of a period start: the digest reports the period just ended before any block responds, and the
period counter increments (R94, R146, R147). -/
def enterPeriod (s : State) : State :=
  ((s.placeDigest.startCycle).mapLinks startLink).updPs (fun _ => s.startProgress)

/-- A period start begins, the replies that stand before a digest on the upstream list having been sent (R148,
log 8). -/
def beginPeriod (s : State) : State := s.sendDue.enterPeriod

/-- One block's share of a period start. -/
def runStep (s : State) : PsStep → State
  | .supply => s.supplyStep
  | .hold => s.holdStep
  | .reference => s.referenceStep
  | .fail => s.failStep
  | .select => s.selectStep
  | .deem => s.deemStep
  | .sequencer => s.sequencerStep
  | .reconcile => s.reconcileStep
  | .settle => s.settleStep
  | .links => s.linksStep
  | .window => s.windowStep
  | .leak => s.leakStep
  | .commit => s.commitStep
  | .compute => s.computeStep
  | .issue => s.issueStep
  | .plan => s.planStep
  | .compose => s.composeStep

/-- Steps 1 to 5 of the Bypass Actuation Unit, with the selection for an abandoned cell: it follows the failure and
comes before the settle count, and is taken before reconciliation or after it (R52, R64, R67). -/
def bypassSteps : List PsStep := [.supply, .fail, .select, .deem, .reconcile, .settle]

/-- The steps of the Bypass Actuation Unit and of the Restart Sequencer before the issue step, in the order they take
where no order is named. The sequencer responds after the settle step where the period just ended was an ISOLATE period
(R68); otherwise the rules give no order, and by default it responds before reconciliation. -/
def coreSteps (s : State) : List PsStep :=
  if s.ps.stageEnded = .isolate then bypassSteps ++ [.sequencer]
  else [.supply, .fail, .select, .deem, .sequencer, .reconcile, .settle]

/-- Whether the failure of the entry in flight is still to come at this period start and would take the part out of
RUN (R63). -/
def failTrips (s : State) : Bool := !s.ps.taken.contains .fail && s.mode == .run && s.failStep.mode != .run

/-- Whether a GAP_EXPIRED and a BYPASS_FAIL trip come together at this period start, so that either may be taken first
(R50, R72). -/
def tripsMeet (s : State) : Bool := s.gapExpires && s.failTrips

/-- The steps that come before the sequencer's response where the rules order them (R68). Where a GAP_EXPIRED and a
BYPASS_FAIL trip come together R50 and R72 leave their order open, and the response, which then ends in the trip and
reads no settle count, may come first (DEDUCED, log 40). -/
def beforeSequencer (s : State) : List PsStep :=
  if s.ps.stageEnded = .isolate ∧ s.tripsMeet = false then bypassSteps else []

/-- The steps that settle mode and stage of the period that begins, but for the loss of a port (R23, R58, R144,
R167). -/
def modeSteps (s : State) : List PsStep := [.supply, .hold, .fail] ++ s.beforeSequencer ++ [.sequencer, .window]

/-- The steps that the rules put before a step at the same period start: R52 for the Bypass Actuation Unit, R23 and
R78 for the stage of the period that begins, R58, R59, R131 and R144 for what sees the hold step, the issue and the
loss of a port, R156 and R167 for the mode. The computation sees a latch that follows the loss of a port (R91). -/
def before (s : State) : PsStep → List PsStep
  | .supply | .hold | .links | .window | .leak => []
  | .reference => [.hold]
  | .fail => [.supply]
  | .select | .deem => [.supply, .fail]
  | .reconcile => [.supply, .fail, .deem]
  | .settle => [.supply, .fail, .select, .deem, .reconcile]
  | .sequencer => s.beforeSequencer
  | .commit => s.modeSteps
  | .compute => s.modeSteps ++ [.reference, .links]
  | .issue => [.hold] ++ s.coreSteps ++ [.window]
  | .plan => [.hold] ++ s.coreSteps ++ [.links, .window]
  | .compose => [.hold, .reference] ++ s.coreSteps ++ [.links, .window, .compute, .issue, .plan]

/-- A step taken, unless it has been taken at this period start. -/
def takeOne (s : State) (x : PsStep) : State :=
  if s.ps.taken.contains x then s else (s.updPs (fun p => { p with taken := x :: p.taken })).runStep x

/-- Whether the loss of a port at this period start would take the part out of RUN (R66, R127). -/
def linksTrip (s : State) : Bool := s.mode == .run && (s.takeOne .links).mode != .run

/-- Whether the loss of a port is to come before a step, which otherwise may be taken first: before the issue step and
before the application of PERIOD marks, where the loss takes the part out of RUN, since both use the mode of the
period that begins (R58, R156, R167). -/
def lossFirst (s : State) : PsStep → Bool
  | .issue => s.linksTrip
  | .commit => s.linksTrip || s.commitStep.linksTrip
  | .supply | .hold | .reference | .fail | .select | .deem | .sequencer | .reconcile | .settle | .links | .window
  | .leak | .compute | .plan | .compose => false

/-- The steps put before a step taken. -/
def prepare (s : State) (x : PsStep) : State :=
  let t := (s.before x).foldl takeOne s
  if t.lossFirst x then t.takeOne .links else t

/-- A step taken, with the steps put before it. -/
def takeStep (s : State) (x : PsStep) : State := (s.prepare x).takeOne x

/-- The order in which a period start takes the steps that nothing else has put in order. -/
def defaultOrder : List PsStep :=
  [.supply, .hold, .reference, .fail, .select, .deem, .sequencer, .reconcile, .settle, .links, .window, .leak,
   .commit, .compute, .issue, .plan, .compose]

/-- The period start under way is finished: the steps not yet taken are, in the default order, and the latches handed
over before it are taken after it (R45, log 38). -/
def completePeriod (s : State) : State :=
  ((defaultOrder.foldl takeStep s).updPs (fun _ => PeriodProgress.none)).takeHanded

/-- The period start under way, if any, is finished before anything else is taken, and so are the latches handed over
(logs 25, 38). -/
def finishPeriod (s : State) : State := if s.ps.underWay then s.completePeriod else s.takeHanded

/-- Whether a period start is under way, or a latch handed over has not been taken. -/
def unfinished (s : State) : Bool := s.ps.underWay || !s.ssc.handed.isEmpty

/-- The period start under way, or else a new one begun. -/
def openPeriod (s : State) : State := if s.ps.underWay then s else s.beginPeriod

/-- The level of BYPASS_SUPPLY_OK. -/
def setSupply (s : State) (ok : Bool) : State := s.setLines { s.lines with bypassSupplyOk := ok }

/-- A whole period start: the steps named in `order` first, each with the steps the rules put before it, then the
others in the default order (R94; log 1). -/
def periodStart (s : State) (supplyOk : Bool) (order : List PsStep) : State :=
  (order.foldl takeStep (s.openPeriod.setSupply supplyOk)).completePeriod

/-- An event that is one step of a period start: where its condition holds once the steps before it are taken, the
step is taken and the period start stays under way; where it does not hold, the event does not take place (logs 2,
3). -/
def stepEvent (s : State) (x : PsStep) (cond : State → Bool) : State :=
  let t := s.openPeriod.prepare x
  if !t.ps.taken.contains x && cond t then t.takeOne x else s

/-- A part held in reset takes no event (log 22). -/
def unlessHeld (s : State) (f : State → State) : State := if s.lines.resetN then f s else s

/-- An event between period starts: the part is not held in reset, and a period start under way is finished first
(logs 22, 25). -/
def between (s : State) (f : State → State) : State := s.unlessHeld (fun s => f s.finishPeriod)

/-- The arrival of a status frame: one whose latch is late comes together with the period start that follows it, and
leaves the latches handed over before it waiting with its own (R45, R114; log 38). -/
def betweenFrames (s : State) (late : Bool) (f : State → State) : State :=
  s.unlessHeld (fun s => f (if late ∧ s.ps.underWay = false then s else s.finishPeriod))

/-- One carrier tick, which is the part's step on an empty queue: the master carrier advances, and the period start is
taken where it reaches position 0 counting up (R93, R94; log 4). -/
def idleTick (s : State) : State :=
  s.unlessHeld (fun s =>
    if s.unfinished then s.finishPeriod
    else if s.ctu.position + 1 < 2 * s.ctu.pInForce then s.updCtu (fun c => { c with position := c.position + 1 })
    else s.periodStart s.lines.bypassSupplyOk [])

end State

end Sys2Proof.Machine
end

