-- ==== Sys2Proof/Machine/Arrivals.lean ====
section
/-! DEFINITION. The commands of the links: the frames that arrive, and the end of a reply (R129, R139, R140, R148,
R151, R160). -/

namespace Sys2Proof.Machine

namespace State

/-- A frame that fails the form check: it is discarded and REF_BAD_CRC is raised (R139). -/
def badFrame (s : State) : State := s.raise .refBadCrc

/-- An MGT frame whose payload is longer than 120 bytes fails the form check (R139, R174). -/
def arriveMgt (s : State) (f : MgtFrame) : State :=
  if f.payload.length ≤ 120 then s.receiveMgt f else s.badFrame

/-- Bytes arriving downstream, judged by the form check and routed by type (R139; log 21). -/
def arriveBytes (s : State) (bytes : List Byte) : State :=
  match parseDownstream bytes with
  | .bad => s.badFrame
  | .ref f => s.receiveRef f
  | .mgt f => s.receiveMgt f

end State

/-- REF_FRAME (R139 to R143). -/
def execRefFrame (f : RefFrame) (s : State) : Host.Outcome State Fault Refusal :=
  .next (s.between (fun t => t.receiveRef f))

/-- MGT_FRAME (R139, R151). -/
def execMgtFrame (f : MgtFrame) (s : State) : Host.Outcome State Fault Refusal :=
  .next (s.between (fun t => t.arriveMgt f))

/-- BAD_DOWNSTREAM_FRAME (R139). -/
def execBadDownstreamFrame (bytes : List Byte) (s : State) : Host.Outcome State Fault Refusal :=
  .next (s.between (fun t => t.arriveBytes bytes))

/-- STS_FRAME (R129, R130; log 38). -/
def execStsFrame (port : Port) (arrival : StsArrival) (s : State) : Host.Outcome State Fault Refusal :=
  .next (s.betweenFrames arrival.late (fun t => t.receiveSts port arrival.bytes arrival.late))

/-- REPLY_SENT (R148, R151). -/
def execReplySent (s : State) : Host.Outcome State Fault Refusal := .next (s.between State.replyEnds)

/-- WARM_RESET_EFFECT (R160, R170). -/
def execWarmResetEffect (s : State) : Host.Outcome State Fault Refusal := .next (s.between State.warmEffect)

end Sys2Proof.Machine
end

