-- ==== Sys2Proof/Machine/Events.lean ====
section
/-! DEFINITION. The commands that are one step of a period start: each has the condition under which its event takes
place and the step it takes (R24, R26, R28, R30, R46, R58, R62, R65, R68, R105, R106, R118, R127, R144, R156; logs 2,
3). -/

namespace Sys2Proof.Machine

namespace State

/-- The sequencer's response progresses in a stage: mode RUN, that stage, and no trip by the gap step (R23, R46). -/
def progressesIn (s : State) (st : Stage) : Bool := s.mode == .run && s.rsq.stage == st && !s.gapExpires

/-- INHIBIT ends: the inhibit count reaches inhibit_hold, and INHIBIT was not entered at this period start (R24). -/
def inhibitEnds (s : State) : Bool :=
  s.progressesIn .inhibit && !s.ps.inhibitEntered && decide (s.settings.inhibitHold ≤ s.rsq.inhibitCount + 1)

/-- ISOLATE ends: the settle count has been reported complete (R25, R68). -/
def isolateEnds (s : State) : Bool := s.progressesIn .isolate && s.ps.settleDone

/-- REMAP is completed at the period start after its entry (R26). -/
def remapEnds (s : State) : Bool := s.progressesIn .remap

/-- ALIGN ends: every string cell is aligned (R27, R105). -/
def alignEnds (s : State) : Bool := s.progressesIn .align && s.allAligned

/-- RESUME is entered: the grant is pending in AWAIT_GRANT (R28). -/
def resumeBegins (s : State) : Bool := s.progressesIn .awaitGrant && s.rsq.grantPending

/-- RESUME ends: k is found equal to R (R29, R30). -/
def resumeEnds (s : State) : Bool := s.progressesIn .resume && !decide (s.rsq.resumeIndex < s.rsq.resumeLength)

/-- Some string cell fails its alignment window (R106). -/
def windowExpires (s : State) : Bool := !s.windowFailures.isEmpty

/-- Some cell is to be deemed closed (R65). -/
def anyDeemable (s : State) : Bool := allPorts.any s.deemable

/-- Some PERIOD mark is applied at this period start (R156). -/
def periodApplies (s : State) : Bool := s.periodCommitOpen && !s.periodDue.isEmpty

/-- One port enters LOST at a period start: the port is judged before the others (R125 to R127). -/
def portEvent (s : State) (p : Port) : State :=
  let t := s.openPeriod
  if !t.ps.taken.contains .links && !t.ps.judged.contains p && t.losesPort p then t.judgePort p else s

/-- The issue step with BYPASS_SUPPLY_OK at the level sampled at the period start (R53, R58). -/
def issueEvent (s : State) (supplyOk : Bool) : State :=
  let t := (s.openPeriod.setSupply supplyOk).prepare .issue
  if !t.ps.taken.contains .issue && t.issuable?.isSome then t.takeOne .issue else s

end State

/-- PORT_LOST (R127). -/
def execPortLost (port : Port) (s : State) : Host.Outcome State Fault Refusal :=
  .next (s.unlessHeld (fun t => t.portEvent port))

/-- INHIBIT_HOLD_EXPIRY (R24). -/
def execInhibitHoldExpiry (s : State) : Host.Outcome State Fault Refusal :=
  .next (s.unlessHeld (fun t => t.stepEvent .sequencer State.inhibitEnds))

/-- SETTLE_COMPLETE (R68). -/
def execSettleComplete (s : State) : Host.Outcome State Fault Refusal :=
  .next (s.unlessHeld (fun t => t.stepEvent .sequencer State.isolateEnds))

/-- REMAP_COMPLETION (R26). -/
def execRemapCompletion (s : State) : Host.Outcome State Fault Refusal :=
  .next (s.unlessHeld (fun t => t.stepEvent .sequencer State.remapEnds))

/-- ALIGN_COMPLETE (R105). -/
def execAlignComplete (s : State) : Host.Outcome State Fault Refusal :=
  .next (s.unlessHeld (fun t => t.stepEvent .sequencer State.alignEnds))

/-- ALIGN_WINDOW_EXPIRY (R106). -/
def execAlignWindowExpiry (s : State) : Host.Outcome State Fault Refusal :=
  .next (s.unlessHeld (fun t => t.stepEvent .window State.windowExpires))

/-- RESUME_ENTRY (R28). -/
def execResumeEntry (s : State) : Host.Outcome State Fault Refusal :=
  .next (s.unlessHeld (fun t => t.stepEvent .sequencer State.resumeBegins))

/-- RESUME_END (R30). -/
def execResumeEnd (s : State) : Host.Outcome State Fault Refusal :=
  .next (s.unlessHeld (fun t => t.stepEvent .sequencer State.resumeEnds))

/-- GAP_EXPIRED (R46). -/
def execGapExpired (s : State) : Host.Outcome State Fault Refusal :=
  .next (s.unlessHeld (fun t => t.stepEvent .sequencer State.gapExpires))

/-- CONTROL_LOST (R144). -/
def execControlLost (s : State) : Host.Outcome State Fault Refusal :=
  .next (s.unlessHeld (fun t => t.stepEvent .hold State.holdTrips))

/-- ACTUATION_FAILURE (R62). -/
def execActuationFailure (s : State) : Host.Outcome State Fault Refusal :=
  .next (s.unlessHeld (fun t => t.stepEvent .fail State.windowClosed))

/-- BLIND_DEEMING (R65). -/
def execBlindDeeming (s : State) : Host.Outcome State Fault Refusal :=
  .next (s.unlessHeld (fun t => t.stepEvent .deem State.anyDeemable))

/-- ACTUATION_ISSUE (R58). -/
def execActuationIssue (supplyOk : Bool) (s : State) : Host.Outcome State Fault Refusal :=
  .next (s.unlessHeld (fun t => t.issueEvent supplyOk))

/-- CLIP_LEAK (R118). -/
def execClipLeak (s : State) : Host.Outcome State Fault Refusal :=
  .next (s.unlessHeld (fun t => t.stepEvent .leak State.leakDue))

/-- PERIOD_COMMIT_APPLY (R156). -/
def execPeriodCommitApply (s : State) : Host.Outcome State Fault Refusal :=
  .next (s.unlessHeld (fun t => t.stepEvent .commit State.periodApplies))

end Sys2Proof.Machine
end

