-- ==== Sys2Proof/Machine/Pins.lean ====
section
/-! DEFINITION. The commands of the pins and of the carrier: PIN_RESET, RESET_N_RISE, PERIOD_START, SAFETY_STOP_FALL,
SAFETY_STOP_RISE (R94, R168, R170). -/

namespace Sys2Proof.Machine

namespace State

/-- The level of SAFETY_STOP_N. -/
def setSafety (s : State) (high : Bool) : State := s.setLines { s.lines with safetyStopN := high }

/-- A fall of SAFETY_STOP_N: taken as an event where the line was high; while RESET_N is low only its level changes
(R168, R170). -/
def safetyFall (s : State) : State :=
  if !s.lines.resetN then s.setSafety false
  else if s.lines.safetyStopN then s.finishPeriod.fallSafety else s

/-- A rise of SAFETY_STOP_N changes nothing but its level (R168). -/
def safetyRise (s : State) : State :=
  if !s.lines.resetN then s.setSafety true
  else if s.lines.safetyStopN then s else s.finishPeriod.setSafety true

end State

/-- PIN_RESET: RESET_N falls and every block is held at its pin reset values (R170). -/
def execPinReset (s : State) : Host.Outcome State Fault Refusal := .next s.pinReset

/-- RESET_N_RISE: the mode follows SAFETY_STOP_N and the carrier starts (R93, R170); nothing where RESET_N is high
(log 3). -/
def execResetNRise (s : State) : Host.Outcome State Fault Refusal := .next (if s.lines.resetN then s else s.riseReset)

/-- PERIOD_START: every block's response, with BYPASS_SUPPLY_OK at the level sampled and the open orders as `order`
names them (R94; log 1). -/
def execPeriodStart (supplyOk : Bool) (order : List PsStep) (s : State) : Host.Outcome State Fault Refusal :=
  .next (s.unlessHeld (fun t => t.periodStart supplyOk order))

/-- SAFETY_STOP_FALL (R168, R170). -/
def execSafetyStopFall (s : State) : Host.Outcome State Fault Refusal := .next s.safetyFall

/-- SAFETY_STOP_RISE (R168). -/
def execSafetyStopRise (s : State) : Host.Outcome State Fault Refusal := .next s.safetyRise

end Sys2Proof.Machine
end

