-- ==== Sys2Proof/Machine/Services.lean ====
section
/-! DEFINITION. The commands that serve the oldest waiting request, one for each request code and one for the codes
that are none of the twelve (R152 to R162). -/

namespace Sys2Proof.Machine

namespace State

/-- A request whose effect leaves no payload in its reply. -/
def plain (effect : State → MgtFrame → State) (s : State) (f : MgtFrame) : State × List Byte := (effect s f, [])

/-- A request that only reads. -/
def reading (payload : State → MgtFrame → List Byte) (s : State) (f : MgtFrame) : State × List Byte :=
  (s, payload s f)

/-- Whether a request code is none of the twelve (R152). -/
def unknownCode (c : Nat) : Bool := !within 1 12 c

end State

/-- READ_TABLE (R153). -/
def execReadTable (s : State) : Host.Outcome State Fault Refusal :=
  .next (s.between (fun t =>
    t.serve (fun c => c == codeReadTable) State.checkReadTable (State.reading State.readTablePayload)))

/-- WRITE_TABLE (R154). -/
def execWriteTable (s : State) : Host.Outcome State Fault Refusal :=
  .next (s.between (fun t =>
    t.serve (fun c => c == codeWriteTable) State.checkWriteTable (State.plain State.writeStore)))

/-- COMMIT (R155). -/
def execCommit (s : State) : Host.Outcome State Fault Refusal :=
  .next (s.between (fun t => t.serve (fun c => c == codeCommit) State.checkCommit (State.plain State.commitStore)))

/-- SET_CONFIG: the record replaces the whole configuration (R157). -/
def execSetConfig (s : State) : Host.Outcome State Fault Refusal :=
  .next (s.between (fun t =>
    t.serve (fun c => c == codeSetConfig) State.checkSetConfig
      (State.plain (fun u f => u.setSettings (settingsAt f.payload)))))

/-- START (R31, R158). -/
def execStart (s : State) : Host.Outcome State Fault Refusal :=
  .next (s.between (fun t =>
    t.serve (fun c => c == codeStart) State.checkStart (State.plain (fun u _ => u.startRun))))

/-- STOP (R159, R167). -/
def execStop (s : State) : Host.Outcome State Fault Refusal :=
  .next (s.between (fun t =>
    t.serve (fun c => c == codeStop) State.checkStop (State.plain (fun u _ => u.departRun .standby))))

/-- CLEAR: the mode becomes STANDBY and nothing else changes (R159, R165). -/
def execClear (s : State) : Host.Outcome State Fault Refusal :=
  .next (s.between (fun t =>
    t.serve (fun c => c == codeClear) State.checkClear (State.plain (fun u _ => u.setMode .standby))))

/-- WARM_RESET: the pending mark is set, and the effect waits for the reply to be sent (R160). -/
def execWarmReset (s : State) : Host.Outcome State Fault Refusal :=
  .next (s.between (fun t =>
    t.serve (fun c => c == codeWarmReset) State.checkWarmReset (State.plain (fun u _ => u.setWarmPending))))

/-- FORCE_ZERO (R133, R161). -/
def execForceZero (s : State) : Host.Outcome State Fault Refusal :=
  .next (s.between (fun t =>
    t.serve (fun c => c == codeForceZero) State.checkForceZero (State.plain State.forceZero)))

/-- RELEASE (R133, R161). -/
def execRelease (s : State) : Host.Outcome State Fault Refusal :=
  .next (s.between (fun t =>
    t.serve (fun c => c == codeRelease) State.checkRelease (State.plain State.releasePort)))

/-- RELINK (R128, R161). -/
def execRelink (s : State) : Host.Outcome State Fault Refusal :=
  .next (s.between (fun t => t.serve (fun c => c == codeRelink) State.checkRelink (State.plain State.relinkPort)))

/-- READ_LOG (R162). -/
def execReadLog (s : State) : Host.Outcome State Fault Refusal :=
  .next (s.between (fun t =>
    t.serve (fun c => c == codeReadLog) State.checkReadLog (State.reading State.readLogPayload)))

/-- UNKNOWN_REQUEST: step 1 fails, answered BAD_VALUE with detail 255 (R152). -/
def execUnknownRequest (s : State) : Host.Outcome State Fault Refusal :=
  .next (s.between (fun t =>
    t.serve State.unknownCode (fun _ _ => some (.badValue, 255)) (State.plain (fun u _ => u))))

end Sys2Proof.Machine
end

