-- ==== Sys2Proof/Machine/Dispatch.lean ====
section
/-! DEFINITION. Every command of the table and its meaning. -/

namespace Sys2Proof.Machine

def exec (i : Instr) (s : State) : Host.Outcome State Fault Refusal :=
  match i with
  | .pinReset => Sys2Proof.Machine.execPinReset s
  | .resetNRise => Sys2Proof.Machine.execResetNRise s
  | .periodStart supplyOk order => Sys2Proof.Machine.execPeriodStart supplyOk order s
  | .safetyStopFall => Sys2Proof.Machine.execSafetyStopFall s
  | .refFrame f => Sys2Proof.Machine.execRefFrame f s
  | .mgtFrame f => Sys2Proof.Machine.execMgtFrame f s
  | .badDownstreamFrame bytes => Sys2Proof.Machine.execBadDownstreamFrame bytes s
  | .stsFrame port arrival => Sys2Proof.Machine.execStsFrame port arrival s
  | .readTable => Sys2Proof.Machine.execReadTable s
  | .writeTable => Sys2Proof.Machine.execWriteTable s
  | .commit => Sys2Proof.Machine.execCommit s
  | .setConfig => Sys2Proof.Machine.execSetConfig s
  | .start => Sys2Proof.Machine.execStart s
  | .stop => Sys2Proof.Machine.execStop s
  | .clear => Sys2Proof.Machine.execClear s
  | .warmReset => Sys2Proof.Machine.execWarmReset s
  | .forceZero => Sys2Proof.Machine.execForceZero s
  | .release => Sys2Proof.Machine.execRelease s
  | .relink => Sys2Proof.Machine.execRelink s
  | .readLog => Sys2Proof.Machine.execReadLog s
  | .unknownRequest => Sys2Proof.Machine.execUnknownRequest s
  | .replySent => Sys2Proof.Machine.execReplySent s
  | .warmResetEffect => Sys2Proof.Machine.execWarmResetEffect s
  | .portLost port => Sys2Proof.Machine.execPortLost port s
  | .inhibitHoldExpiry => Sys2Proof.Machine.execInhibitHoldExpiry s
  | .settleComplete => Sys2Proof.Machine.execSettleComplete s
  | .remapCompletion => Sys2Proof.Machine.execRemapCompletion s
  | .alignComplete => Sys2Proof.Machine.execAlignComplete s
  | .alignWindowExpiry => Sys2Proof.Machine.execAlignWindowExpiry s
  | .resumeEntry => Sys2Proof.Machine.execResumeEntry s
  | .resumeEnd => Sys2Proof.Machine.execResumeEnd s
  | .gapExpired => Sys2Proof.Machine.execGapExpired s
  | .controlLost => Sys2Proof.Machine.execControlLost s
  | .actuationFailure => Sys2Proof.Machine.execActuationFailure s
  | .blindDeeming => Sys2Proof.Machine.execBlindDeeming s
  | .actuationIssue supplyOk => Sys2Proof.Machine.execActuationIssue supplyOk s
  | .clipLeak => Sys2Proof.Machine.execClipLeak s
  | .periodCommitApply => Sys2Proof.Machine.execPeriodCommitApply s
  | .safetyStopRise => Sys2Proof.Machine.execSafetyStopRise s

end Sys2Proof.Machine
end

