-- ==== Sys2Proof/Safety.lean ====
section
/-! DEFINITION. The laws that hold of the part between any two steps: of the roster and of the phase strings (R1, R7,
R8), of the entry in use (R26), of the actuation queue (R57), of mode, stage and nest list (R21, R34, R48), of the gap
count (R46), of the policies (R32, R34), of the configuration record and the carrier (R93, R157), and of the fault log
(R172). -/

namespace Sys2Proof.Machine

/-- The part is out of reset and stands between two period starts, with none left under way and no latch handed over
that has not been taken (logs 2, 22, 25, 38). -/
structure State.Settled (s : State) : Prop where
  running : s.lines.resetN = true
  between : s.ps.underWay = false
  taken : s.ssc.handed = []

/-- The request that the next service serves: the oldest waiting one, with no warm reset pending (R152). -/
structure State.Serves (s : State) (code : Nat) (b : Fin 2) (f : MgtFrame) : Prop where
  settled : s.Settled
  free : s.mga.warmPending = false
  oldest : s.oldestWaiting? = some (b, f)
  code : f.code.toNat = code

/-- The checks of a request in the order given, each with the result and the detail of its failure: the first that
fails is what the request is answered with, without a payload, and nothing else changes (R152). -/
def State.AnswersFirstFailure (s : State) (c : Instr) (b : Fin 2) (f : MgtFrame) (checks : List (Bool × Reject)) :
    Prop :=
  ∀ pre r post, checks = pre ++ (false, r) :: post → (∀ x ∈ pre, x.1 = true) →
    exec c s = .next (s.answer b f { result := r.1, detail := r.2, payload := [] })

/-- The service commands with the request code each serves (R176) and the checks it makes (R152). -/
def services : List (Instr × Nat × (State → MgtFrame → Option Reject)) :=
  [(.readTable, 1, State.checkReadTable), (.writeTable, 2, State.checkWriteTable), (.commit, 3, State.checkCommit),
   (.setConfig, 4, State.checkSetConfig), (.start, 5, State.checkStart), (.stop, 6, State.checkStop), (.clear, 7, State.checkClear),
   (.warmReset, 8, State.checkWarmReset), (.forceZero, 9, State.checkForceZero), (.release, 10, State.checkRelease),
   (.relink, 11, State.checkRelink), (.readLog, 12, State.checkReadLog)]

/-- R1 for one entry: a position exactly while ACTIVE or ISOLATING, installed exactly where not ABSENT, an
insertion_target only on a SPARE, deferred only on an ACTIVE cell. -/
structure RosterEntry.Law (e : RosterEntry) : Prop where
  position : e.position.isSome = e.inString
  installed : e.installed = (e.role != .absent)
  target : e.insertionTarget.isSome = true → e.role = .spare
  deferred : e.deferred = true → e.role = .active

/-- R1 for the roster: every entry obeys its law, an insertion_target names an ISOLATING port of the same phase, and no
two spares name the same port. -/
structure State.RosterLaw (s : State) : Prop where
  entries : ∀ p, (s.entry p).Law
  targets : ∀ p q, (s.entry p).insertionTarget = some q → (s.entry q).role = .isolating ∧ phaseOf q = phaseOf p
  distinct : ∀ p p' q, (s.entry p).insertionTarget = some q → (s.entry p').insertionTarget = some q → p = p'

/-- Outside RUN no cell is ISOLATING and none is deferred (R1, R18), and in RUN no warm reset is pending (R160). -/
structure State.QuietLaw (s : State) : Prop where
  quiet : s.mode ≠ .run → ∀ p, (s.entry p).role ≠ .isolating ∧ (s.entry p).deferred = false
  warm : s.mode = .run → s.mga.warmPending = false

/-- R57: at most one entry per port, and none but the head in flight. -/
structure State.QueueLaw (s : State) : Prop where
  ports : (s.bau.queue.map (fun a => a.port)).Nodup
  waiting : ∀ a ∈ s.bau.queue.tail, a.issued = none

/-- Outside RUN the stage is NORMAL (R21); in NORMAL the nest list is empty (R34); the grant is pending in AWAIT_GRANT
only (R47); the ramp gain is that of the RESUME period in RESUME and 1024 in every other stage (R48). -/
structure State.StageLaw (s : State) : Prop where
  stage : s.mode ≠ .run → s.rsq.stage = .normal
  nest : s.rsq.stage = .normal → s.rsq.nest = []
  grant : s.rsq.grantPending = true → s.rsq.stage = .awaitGrant
  gain : s.rsq.rampGain =
    if s.rsq.stage = .resume then 1024 * s.rsq.resumeIndex / s.rsq.resumeLength else 1024

/-- In INHIBIT, ISOLATE and REMAP an episode is open, and while one is open the gap count stands below the gap_budget of
its policy, which its bottom context holds (R34, R46). -/
structure State.GapLaw (s : State) : Prop where
  opened : s.rsq.stage = .inhibit ∨ s.rsq.stage = .isolate ∨ s.rsq.stage = .remap → s.rsq.nest ≠ []
  below : s.rsq.nest ≠ [] → ∃ e, s.episodePolicy = some e ∧ s.rsq.gapCount < e.gapBudget

/-- R7, R8: no phase has more than N_nom ACTIVE cells; in every mode but STANDBY the cells of each phase string, at most
N_nom, hold the positions 0..N−1 once each. -/
structure State.StringLaw (s : State) : Prop where
  active : ∀ x, s.activeCount x ≤ s.settings.nNom
  positions : s.mode ≠ .standby → ∀ x, s.stringLength x ≤ s.settings.nNom ∧
    (s.phaseString x).map (fun p => (s.entry p).position) = (List.range (s.stringLength x)).map some

/-- R26: in RUN in ALIGN, AWAIT_GRANT, RESUME and NORMAL every deficit is 3 or less, and the active rebalance entry of
the deficit tuple is valid. -/
structure State.EntryLaw (s : State) : Prop where
  usable : s.mode = .run →
    s.rsq.stage = .align ∨ s.rsq.stage = .awaitGrant ∨ s.rsq.stage = .resume ∨ s.rsq.stage = .normal →
    (∀ x, s.deficit x ≤ 3 ∧ s.deficit x < s.settings.nNom) ∧
      (s.rebalActive[s.deficit .a * 16 + s.deficit .b * 4 + s.deficit .c]?).map (fun e => e.valid) = some true

/-- A policy entry within the ranges of R32. -/
structure PolicyEntry.Law (e : PolicyEntry) : Prop where
  gap : 1 ≤ e.gapBudget ∧ e.gapBudget ≤ 4095
  ramp : 1 ≤ e.rampPeriods ∧ e.rampPeriods ≤ 255
  nest : 1 ≤ e.maxNest ∧ e.maxNest ≤ 3

/-- Every policy entry, staged, active or copied into the nest list, is within the ranges of R32, and the nest depth is
at most 3 (R34). -/
structure State.PolicyLaw (s : State) : Prop where
  staged : ∀ i : Fin 7, (s.policyStaged[i.val]).Law
  active : ∀ i : Fin 7, (s.policyActive[i.val]).Law
  episode : ∀ c ∈ s.rsq.nest, ∀ e, c.policy = some e → e.Law
  depth : s.nestDepth ≤ 3

/-- Every field of the record is in its range (R157), P in force is 100..4000 and the carrier's position is one of
0..2P−1 (R93, R95). -/
structure State.CarrierLaw (s : State) : Prop where
  record : (settingsChecks s.settings).all id = true
  inForce : 100 ≤ s.ctu.pInForce ∧ s.ctu.pInForce ≤ 4000
  position : s.ctu.position < 2 * s.ctu.pInForce

/-- R172: at most sixteen records, numbered upwards without a gap, the newest by the number before the next one; the
numbers wrap. -/
structure State.LogLaw (s : State) : Prop where
  size : s.log.records.length ≤ 16
  numbers : s.log.records.map (fun r => r.sequence) =
    (List.range s.log.records.length).map
      (fun i => s.log.next - BitVec.ofNat 16 (s.log.records.length - i))

end Sys2Proof.Machine
end

