-- ==== Sys2Proof/Certificates/Slice0/Obligations.lean ====
section
/-! DEFINITION. The statements about this model, for the provers. -/

open Sys2Proof Sys2Proof.Machine Sys2Proof.Machine.State

/-! ### The step, the queue and the clock -/

/-- The step takes the command at the front of the queue on the queue's rest; and nothing the spec describes stops the
part, so that every command is answered by a next state. -/
def Obligations.StepTakesFrontCommand : Prop :=
  ∀ (c : Instr) (s : State),
    step { s with pending := c :: s.pending } = exec c s ∧ ∃ t : State, exec c s = .next t

/-- R93, R94 as the model reads them on an empty queue (DESIGN CHOICE, log 4): one carrier tick passes, and at the end
of the cycle the period start is taken, with no order named and the supply line as it stands. While RESET_N is low the
carrier does not run (R93, R170): no tick passes and nothing changes. -/
def Obligations.EmptyQueueTicksCarrier : Prop :=
  (∀ s : State, s.Settled → s.pending = [] →
    (s.ctu.position + 1 < 2 * s.ctu.pInForce →
      step s = .next { s with ctu := { s.ctu with position := s.ctu.position + 1 } }) ∧
    (2 * s.ctu.pInForce ≤ s.ctu.position + 1 →
      step s = exec (.periodStart s.lines.bypassSupplyOk []) s)) ∧
  ∀ s : State, s.lines.resetN = false → s.pending = [] → step s = .next s

/-- R170 with log 22: while RESET_N is low no command but those of the two reset edges and of SAFETY_STOP_N changes
anything, and a fall or rise of SAFETY_STOP_N leaves nothing but a level. A command that is no step of a period start
first lets the one under way finish, and so does the step on an empty queue (DESIGN CHOICE, log 25): the part is settled
then, and the command acts as it does on a settled part. PERIOD_START finishes the one under way in the order it names and
begins no other (log 25): a row that takes one step of a period start, with a PERIOD_START after it, is one PERIOD_START
with that step named first, at the same level of the supply line; so what is stated of every order of a whole period
start holds of one taken in parts (logs 1, 2). -/
def Obligations.InResetAndMidPeriodStart : Prop :=
  (∀ (c : Instr) (s : State), s.lines.resetN = false → c ≠ .pinReset → c ≠ .resetNRise →
    (c ≠ .safetyStopFall → c ≠ .safetyStopRise → exec c s = .next s) ∧
    (c = .safetyStopFall → exec c s = .next { s with lines := { s.lines with safetyStopN := false } }) ∧
    (c = .safetyStopRise → exec c s = .next { s with lines := { s.lines with safetyStopN := true } })) ∧
  (∀ s : State, s.lines.resetN = true → s.ps.underWay = true → s.completePeriod.Settled ∧
    (s.pending = [] → step s = .next s.completePeriod) ∧
    (∀ c : Instr, (∃ f, c = .refFrame f) ∨ (∃ f, c = .mgtFrame f) ∨ (∃ bytes, c = .badDownstreamFrame bytes) ∨
      (∃ p a, c = .stsFrame p a) ∨ (∃ x ∈ services, c = x.1) ∨ c = .unknownRequest ∨ c = .replySent ∨
      c = .warmResetEffect → exec c s = exec c s.completePeriod) ∧
    (s.lines.safetyStopN = true → exec .safetyStopFall s = exec .safetyStopFall s.completePeriod) ∧
    (s.lines.safetyStopN = false → exec .safetyStopRise s = exec .safetyStopRise s.completePeriod)) ∧
  (∀ (ok : Bool) (order : List PsStep) (s : State), s.lines.resetN = true → s.ps.underWay = true →
    ∃ t : State, exec (.periodStart ok order) s = .next t ∧ t.Settled ∧
      t.ctu.counter = s.ctu.counter ∧ t.ctu.position = s.ctu.position ∧ t.ctu.pInForce = s.ctu.pInForce ∧
      t.ctu.bases = s.ctu.bases ∧ t.lines = { s.lines with bypassSupplyOk := ok } ∧
      t.cli.upstream = s.cli.upstream ∧ t.cli.reported = s.cli.reported ∧
      t.bau.supply = if .supply ∈ s.ps.taken then s.bau.supply else ⟨s.bau.supply.middle, s.bau.supply.newest, ok⟩) ∧
  ∀ (order : List PsStep) (s u : State), s.lines.resetN = true → u ≠ s →
    let ok := s.lines.bypassSupplyOk
    ∀ x ∈ [(Instr.inhibitHoldExpiry, PsStep.sequencer), (.settleComplete, .sequencer), (.remapCompletion, .sequencer),
        (.alignComplete, .sequencer), (.resumeEntry, .sequencer), (.resumeEnd, .sequencer), (.gapExpired, .sequencer),
        (.alignWindowExpiry, .window), (.controlLost, .hold), (.actuationFailure, .fail), (.blindDeeming, .deem),
        (.actuationIssue ok, .issue), (.clipLeak, .leak), (.periodCommitApply, .commit)],
      exec x.1 s = .next u → u.ps.underWay = true ∧
        exec (.periodStart ok order) u = exec (.periodStart ok (x.2 :: order)) s

/-! ### Laws that every step keeps -/

/-- The laws of mode, stage and nest list (R21, R34, R47, R48) and of the gap count (R46) are kept by every step. R165: a
step enters RUN by START alone, from STANDBY, and TRIPPED from RUN alone; and where no period start is under way, it
leaves the mode as it is or changes it by one of the rows of R165, on that row's cause, or by a pin reset. -/
def Obligations.StageLawKept : Prop :=
  (∀ s t : State, s.StageLaw → step s = .next t → t.StageLaw) ∧
  (∀ s t : State, s.PolicyLaw → s.GapLaw → step s = .next t → t.GapLaw) ∧
  ∀ s t : State, s.QuietLaw → step s = .next t →
    let front := fun c : Instr => s.pending.head? = some c
    let warm := fun high : Bool => s.mode ≠ .run ∧ s.mga.warmPending = true ∧ s.lines.safetyStopN = high
    (t.mode = .run → s.mode = .run ∨ (s.mode = .standby ∧ front .start)) ∧
    (t.mode = .tripped → s.mode = .tripped ∨ s.mode = .run) ∧
    (s.Settled → t.mode = s.mode ∨ front .pinReset ∨
      (s.mode = .standby ∧ t.mode = .run ∧ front .start) ∨ (s.mode = .run ∧ t.mode = .standby ∧ front .stop) ∨
      (s.mode = .run ∧ t.mode = .tripped) ∨
      (s.mode = .tripped ∧ t.mode = .standby ∧ (front .clear ∨ warm true)) ∨
      (s.mode = .safeStop ∧ t.mode = .standby ∧ s.lines.safetyStopN = true ∧ (front .clear ∨ warm true)) ∨
      (s.mode ≠ .safeStop ∧ t.mode = .safeStop ∧ (front .safetyStopFall ∨ warm false)))

/-- The laws of the roster (R1) and of the roster outside RUN (R18) are kept by every step. So is the law of the phase
strings (R7, R8): no phase has more than N_nom ACTIVE cells, and outside STANDBY the ACTIVE and ISOLATING cells of each
phase, at most N_nom, hold the positions 0..N−1 once each. And so is the promise of R26: in RUN in ALIGN, AWAIT_GRANT,
RESUME and NORMAL every deficit is 3 or less and the active entry of the tuple is valid. -/
def Obligations.RosterLawKept : Prop :=
  (∀ s t : State, s.RosterLaw → s.QuietLaw → step s = .next t → t.RosterLaw ∧ t.QuietLaw) ∧
  (∀ s t : State, s.RosterLaw → s.QuietLaw → s.StringLaw → step s = .next t → t.StringLaw) ∧
  ∀ s t : State, s.EntryLaw → step s = .next t → t.EntryLaw

/-- The law of the actuation queue (R57) is kept by every step. -/
def Obligations.QueueLawKept : Prop :=
  ∀ s t : State, s.QueueLaw → step s = .next t → t.QueueLaw

/-- The ranges of the policies and of the nest depth (R32, R34) are kept by every step. -/
def Obligations.PolicyLawKept : Prop :=
  ∀ s t : State, s.PolicyLaw → step s = .next t → t.PolicyLaw

/-- The ranges of the configuration record, of P in force and of the carrier's position (R93, R95, R157) are kept by
every step. -/
def Obligations.CarrierLawKept : Prop :=
  ∀ s t : State, s.CarrierLaw → step s = .next t → t.CarrierLaw

/-- The law of the fault log (R172) is kept by every step. -/
def Obligations.LogLawKept : Prop :=
  ∀ s t : State, s.LogLaw → step s = .next t → t.LogLaw

/-- Every law holds of the part right after reset. -/
def Obligations.ResetObeysLaws : Prop :=
  State.reset.StageLaw ∧ State.reset.RosterLaw ∧ State.reset.QuietLaw ∧ State.reset.QueueLaw ∧
    State.reset.PolicyLaw ∧ State.reset.CarrierLaw ∧ State.reset.LogLaw ∧ State.reset.GapLaw ∧
    State.reset.StringLaw ∧ State.reset.EntryLaw

/-! ### Frames on the links -/

/-- R139, R174, R175, R176: the form check passes the bytes of every REF frame and gives back each of its fields; and it
gives a REF frame for exactly the twelve bytes of that frame, type code and CRC included, whatever the unassigned bits 6
to 3 of byte 2 are. -/
def Obligations.RefFrameRoundTrip : Prop :=
  (∀ f : RefFrame, parseDownstream (encodeRef f) = .ref f) ∧
  ∀ (bytes : List Byte) (f : RefFrame),
    parseDownstream bytes = .ref f ↔
      ∃ control : Byte, control.extractLsb' 0 3 = f.motionCode ∧ control.getLsbD 7 = f.grant ∧
        let half := fun h : Half => [h.extractLsb' 8 8, h.extractLsb' 0 8]
        let body := [0xA1#8, f.seq, control, f.token] ++ half f.vA ++ half f.vB ++ half f.vC
        bytes = body ++ half (crc16 body) ∧ bytes.length = 12

/-- R139, R174, R175, R176: the form check gives an MGT frame for exactly the bytes of that frame, with a payload of at
most 120 bytes. -/
def Obligations.MgtFrameRoundTrip : Prop :=
  ∀ (bytes : List Byte) (f : MgtFrame),
    parseDownstream bytes = .mgt f ↔ bytes = encodeMgt f ∧ f.payload.length ≤ 120

/-- R129 check 1, R174 to R176: a status frame passes check 1 exactly when it is the bytes of a frame whose contact
code, vdc and capture lie in their ranges. -/
def Obligations.StatusFormCheck : Prop :=
  ∀ (s : State) (bytes : List Byte) (f : StsFrame),
    s.checkSts bytes = some f ↔
      bytes = encodeSts f ∧ f.contactCode.toNat ≤ 3 ∧ f.vdc.toNat ≤ 4095 ∧ f.capture.toNat < 2 * s.ctu.pInForce

/-- R172, R174, R175 and R176: the CRC of the nine bytes "123456789" is 0x29B1, and a frame whose two last bytes are
not the CRC of the others fails both receivers' checks. The bytes of the frames the part sends, DIG, RPL, and CMD or
URG, stand at the offsets of R176, with the CRC of the bytes before it as the two last; that the three bytes of the
event flags of a DIG frame go most significant first is DEDUCED (log 17). -/
def Obligations.CrcGuardsFrames : Prop :=
  crc16 [0x31, 0x32, 0x33, 0x34, 0x35, 0x36, 0x37, 0x38, 0x39] = 0x29B1#16 ∧
  (∀ (body : List Byte) (hi lo : Byte), hi ++ lo ≠ crc16 body →
    parseDownstream (body ++ [hi, lo]) = .bad ∧ parseSts (body ++ [hi, lo]) = none) ∧
  let sealed := fun body : List Byte => body ++ [(crc16 body).extractLsb' 8 8, (crc16 body).extractLsb' 0 8]
  (∀ d : Digest,
    let newest := d.newestLog.getD 0
    (UpFrame.digest d).bytes = sealed
      [0xB1, d.period.extractLsb' 24 8, d.period.extractLsb' 16 8, d.period.extractLsb' 8 8, d.period.extractLsb' 0 8,
       BitVec.ofNat 8 ([Mode.standby, .run, .tripped, .safeStop].idxOf d.mode),
       BitVec.ofNat 8 ([Stage.normal, .inhibit, .isolate, .remap, .align, .awaitGrant, .resume].idxOf d.stage),
       d.restartNumber.extractLsb' 8 8, d.restartNumber.extractLsb' 0 8, BitVec.ofNat 8 d.nestDepth,
       BitVec.ofNat 8 (d.gapCount / 256), BitVec.ofNat 8 d.gapCount, BitVec.ofNat 8 d.lengths.a,
       BitVec.ofNat 8 d.lengths.b, BitVec.ofNat 8 d.lengths.c, BitVec.ofNat 8 d.holdCount, d.flags.extractLsb' 16 8,
       d.flags.extractLsb' 8 8, d.flags.extractLsb' 0 8, newest.extractLsb' 8 8, newest.extractLsb' 0 8,
       BitVec.ofNat 8 ((if d.newestLog = none then 128 else 0) + d.buffered)]) ∧
  (∀ (b : Fin 2) (r : Reply), (UpFrame.reply b r).bytes = sealed
    ([0xB2, r.tag, r.code,
      BitVec.ofNat 8 ([Result.done, .refusedMode, .refusedState, .badTable, .badIndex, .badLength,
        .badValue].idxOf r.result),
      r.detail, BitVec.ofNat 8 r.payload.length] ++ r.payload)) ∧
  ∀ f : CellFrame,
    let load := f.load.getD (0, false)
    cellBytes f = sealed
      [if f.urgent then 0xC2 else 0xC1, BitVec.ofNat 8 f.port.val, f.tag,
       BitVec.ofNat 8 ([Command.switch, .zero, .block].idxOf f.command + (if f.order = .closed then 16 else 0) +
         (if f.load = none then 0 else 128)),
       BitVec.ofNat 8 (f.pair.cL / 256), BitVec.ofNat 8 f.pair.cL, BitVec.ofNat 8 (f.pair.cR / 256),
       BitVec.ofNat 8 f.pair.cR, BitVec.ofInt 8 f.trim, BitVec.ofNat 8 (load.1 / 256), BitVec.ofNat 8 load.1,
       if load.2 then 1 else 0]

/-! ### Resets and the lines -/

/-- What PIN_RESET leaves in every state of the part: the pin reset values of each block, with the levels of the other
input lines as they are (R3, R22, R32, R70, R73, R77, R86, R87, R108, R111, R118, R124, R149, R151, R156, R157, R172).
The model's own count of the free values of log 7 stays, at each port (`moments`). That the command of the last period
frame is none then is DEDUCED (log 42). -/
def Obligations.PinResetValues : Prop :=
  ∀ s : State, ∃ t : State, exec .pinReset s = .next t ∧
    t.lines = { s.lines with resetN := false } ∧ t.pending = s.pending ∧
    (∀ p, t.entry p =
      { installed := false, role := .absent, position := none, rank := 0, linkDelay := 0, bypassOrder := .closed,
        contact := .unknown, lastStatus := 0, vdc := 0, noteCount := 0, clipBucket := 0, latchCount := 0,
        ineligible := false, insertionTarget := none, deferred := false, blind := false }) ∧
    (∀ i : Fin 7, t.policyStaged[i.val] = ⟨false, false, false, 1, 1, 1⟩ ∧
      t.policyActive[i.val] = ⟨false, false, false, 1, 1, 1⟩) ∧
    t.rsq =
      { stage := .normal, nest := [], gapCount := 0, restartNumber := 0, rampGain := 1024, resumeIndex := 0,
        inhibitCount := 0, grantPending := false, resumeLength := 1 } ∧
    t.bau.supply = ⟨false, false, false⟩ ∧ t.bau.queue = [] ∧ t.bau.settleCount = 0 ∧
    (∀ p : Port, t.bau.retry[p.val] = false ∧ t.bau.blindStart[p.val] = none) ∧
    (∀ i : Fin 64, t.rebalStaged[i.val] = ⟨false, ⟨⟨0, 0, 0⟩, ⟨0, 0, 0⟩, ⟨0, 0, 0⟩⟩, 0⟩ ∧
      t.rebalActive[i.val] = ⟨false, ⟨⟨0, 0, 0⟩, ⟨0, 0, 0⟩, ⟨0, 0, 0⟩⟩, 0⟩) ∧
    t.rtu =
      { held := ⟨0, 0, 0⟩, fresh := false, entryIndex := none, gain := 1024, y := ⟨0, 0, 0⟩, yRamped := ⟨0, 0, 0⟩,
        m := ⟨0, 0, 0⟩, pairs := ⟨⟨500, 500⟩, ⟨500, 500⟩, ⟨500, 500⟩⟩, xformClamps := ⟨0, 0, 0⟩,
        cellClamps := ⟨0, 0, 0⟩ } ∧
    t.ctu.position = 0 ∧ t.ctu.pInForce = 1000 ∧ t.ctu.bases = ⟨0, 666, 1333⟩ ∧ t.ctu.counter = 0 ∧
    t.ctu.windowStart = none ∧
    (∀ p, t.cport p =
      { target := none, lastError := none, capture := none, sent := .nothing, passCount := 0, aligned := false }) ∧
    (∀ i : Fin 16, t.screenStaged[i.val] = ⟨false, 0, 0, .pass⟩ ∧ t.screenActive[i.val] = ⟨false, 0, 0, .pass⟩ ∧
      t.ssc.hits[i.val] = 0) ∧
    t.ssc.leakCount = 0 ∧ t.ssc.handed = [] ∧
    (∀ p, t.link p =
      { state := .idle, missCount := 0, linkingCount := 0, tagSent := none, accepted := false, transmit := [],
        forceOnce := false, forceContinuous := false, malformed := 0, wrongPort := 0, stale := 0, repeated := 0,
        framesAccepted := 0, lastCommand := none, moments := (s.link p).moments }) ∧
    t.cli =
      { lastSeq := none, current := none, motion := .braked, holdCount := 4, flags := 0, reported := 0,
        upstream := [] } ∧
    t.mga.buf0 = .free ∧ t.mga.buf1 = .free ∧ t.mga.warmPending = false ∧
    t.mga.periodMarks = ⟨false, false, false⟩ ∧ t.mga.recoveryMarks = ⟨false, false, false⟩ ∧
    t.settings =
      { nNom := 6, p := 1000, bases := ⟨0, 666, 1333⟩, j := 4, aTol := 8, alignLimit := 16, missLimit := 3,
        refHoldLimit := 4, inhibitHold := 3, confirmLimit := 40, settle := 6, blindWait := 30, clipLimit := 4,
        leakInterval := 64, spareVdcMin := 0 } ∧
    t.log = ⟨0, []⟩ ∧
    t.brakeDemand = true ∧ t.tripLine = false ∧ t.torqueGap = false

/-- R170, R93, R94: at the rise of RESET_N every block stands at the pin reset values that PIN_RESET leaves
(PinResetValues says the whole of them), the mode follows the level of SAFETY_STOP_N, the carrier starts from position 0
with the counter at 0, and no record is written. RESET_N_RISE on a part that is not held in reset is no event (DESIGN
CHOICE, log 3). -/
def Obligations.ResetRise : Prop :=
  ∀ s : State,
    (s.lines.resetN = false → ∃ t : State, exec .resetNRise s = .next t ∧
      t.lines = { s.lines with resetN := true } ∧ t.pending = s.pending ∧
      t.mode = (if s.lines.safetyStopN then .standby else .safeStop) ∧
      t.ctu.position = 0 ∧ t.ctu.counter = 0 ∧ t.log = ⟨0, []⟩ ∧ t.rsq.stage = .normal ∧ t.bau.queue = [] ∧
      (∀ p, (t.entry p).role = .absent ∧ (t.link p).state = .idle) ∧
      t.brakeDemand = true ∧ t.tripLine = false ∧ t.torqueGap = false ∧
      ∃ r : State, exec .pinReset s = .next r ∧
        t = { r with lines := { r.lines with resetN := true }, mode := t.mode }) ∧
    (s.lines.resetN = true → exec .resetNRise s = .next s)

/-- R160, R170 and the warm reset columns of R3, R22, R70, R77, R108, R118, R124 and R149: what a warm reset leaves, in
whichever mode it takes effect. The carrier target and the last command are kept (DESIGN CHOICE, log 16); of a transmit
list the frame that is being sent completes, the frames before it having been sent in full (a free value, log 7). The
upstream list keeps what stands behind the WARM_RESET reply, and is kept whole where that reply does not stand on it.
With SAFETY_STOP_N low in a mode other than SAFE_STOP, which no run reaches, the positions are renumbered, and an urgent
BLOCK is ordered behind the frames of every linked port before the lists are cut (DEDUCED, log 23; its neutral pair is at
the P in force, DEDUCED, log 30). -/
def Obligations.WarmResetTakesEffect : Prop :=
  ∀ s : State, s.Settled → s.mga.warmPending = true → ∃ t : State, exec .warmResetEffect s = .next t ∧
    t = { s with mode := if s.lines.safetyStopN then .standby else .safeStop, roster := t.roster, bau := t.bau,
                 ctu := { s.ctu with ports := t.ctu.ports, windowStart := none }, links := t.links, cli := t.cli,
                 rsq := { stage := .normal, nest := [], gapCount := 0, restartNumber := s.rsq.restartNumber,
                          rampGain := 1024, resumeIndex := 0, inhibitCount := 0, grantPending := false,
                          resumeLength := 1 },
                 rtu := { s.rtu with held := ⟨0, 0, 0⟩, fresh := false },
                 ssc := { s.ssc with leakCount := 0 },
                 mga := { s.mga with buf0 := .free, buf1 := .free, warmPending := false } } ∧
    (∀ p, t.entry p =
      { s.entry p with clipBucket := 0, insertionTarget := none, deferred := false, position := (t.entry p).position }) ∧
    t.bau.supply = ⟨false, false, false⟩ ∧ t.bau.queue = [] ∧ t.bau.settleCount = 0 ∧
    (∀ p : Port, t.bau.blindStart[p.val] = none ∧
      t.bau.retry[p.val] = (s.bau.retry[p.val] || s.inFlight?.any (fun a => a.port == p))) ∧
    (∀ p, t.cport p =
      { s.cport p with lastError := none, capture := none, sent := .nothing, passCount := 0, aligned := false }) ∧
    (∀ p, t.link p =
      { s.link p with
        state := if (s.entry p).installed then .linking else .idle
        missCount := 0, linkingCount := 0, tagSent := none, accepted := false, transmit := (t.link p).transmit
        forceOnce := false, forceContinuous := false, moments := (s.link p).moments + 1 }) ∧
    t.cli.lastSeq = none ∧ t.cli.current = none ∧ t.cli.motion = s.cli.motion ∧
    t.cli.holdCount = s.settings.refHoldLimit ∧ t.cli.reported = s.cli.reported ∧
    (∀ pre b r post, s.cli.upstream = pre ++ .reply b r :: post → r.code.toNat = 8 → r.result = .done →
      (∀ b' r', .reply b' r' ∈ pre → ¬(r'.code.toNat = 8 ∧ r'.result = .done)) → t.cli.upstream = post) ∧
    ((∀ b r, .reply b r ∈ s.cli.upstream → ¬(r.code.toNat = 8 ∧ r.result = .done)) →
      t.cli.upstream = s.cli.upstream) ∧
    (∀ x, hasFlag t.cli.flags x =
      (hasFlag s.cli.flags x || (x == .reqDropped && (isWaiting s.mga.buf0 || isWaiting s.mga.buf1)))) ∧
    (s.lines.safetyStopN = true ∨ s.mode = .safeStop → ∀ p, (t.entry p).position = (s.entry p).position ∧
      (t.link p).transmit =
        ((s.link p).transmit.drop (Config.framesSent p (s.link p).moments)).take 1) ∧
    (s.lines.safetyStopN = false → s.mode ≠ .safeStop →
      (∀ x, t.phaseString x = s.phaseString x ∧
        (t.phaseString x).map (fun p => (t.entry p).position) = (List.range (s.stringLength x)).map some) ∧
      ∀ p, (t.link p).transmit =
        (((s.link p).transmit ++ if (s.link p).state.sends then [s.urgentFrame p .block] else []).drop
          (Config.framesSent p (s.link p).moments)).take 1)

/-- R168, R50, R18, R134 and R172: SAFETY_STOP_FALL writes one SAFETY_STOP record and the mode becomes SAFE_STOP. In RUN
the state with the level low and the record written departs to SAFE_STOP as at every departure from RUN: sequencer at
rest, queue pruned, roster compacted, an urgent BLOCK ordered (DepartureFromRun says the whole of it). In STANDBY each
string keeps its order and is renumbered 0..N−1, and in TRIPPED the roster stays; both order the urgent BLOCK, whose
neutral pair is at the P in force (DEDUCED, log 30). In SAFE_STOP nothing but the level changes; the rise changes nothing
but the level; and a fall with the line low already, or a rise with it high, is no event (DESIGN CHOICE, log 3). -/
def Obligations.SafetyStopInput : Prop :=
  ∀ s : State, s.Settled →
    let lines := { s.lines with safetyStopN := false }
    let cli := { s.cli with flags := withFlag s.cli.flags .logWritten }
    let log := fun (mode : Mode) (stage : Stage) (depth : Nat) => FaultLog.mk (s.log.next + 1) (keepSixteen
      (s.log.records ++ [{ sequence := s.log.next, stamp := s.ctu.counter, port := none, kind := .safetyStop,
                           word := none, mode := mode, stage := stage, restartNumber := s.rsq.restartNumber,
                           nestDepth := depth, deficits := none }]))
    (s.lines.safetyStopN = true → s.mode = .run → exec .safetyStopFall s =
      .next (({ s with lines := lines, cli := cli, log := log .run s.rsq.stage s.rsq.nest.length } : State).departRun
        .safeStop)) ∧
    (s.lines.safetyStopN = true → s.mode = .standby ∨ s.mode = .tripped → s.rsq.stage = .normal → s.rsq.nest = [] →
      ∃ t : State, exec .safetyStopFall s = .next t ∧
      (∀ p, t.entry p = { s.entry p with position := (t.entry p).position }) ∧
      (∀ p, (s.entry p).role ≠ .active → (s.entry p).role ≠ .isolating → t.entry p = s.entry p) ∧
      (s.mode = .tripped → t.roster = s.roster) ∧
      (s.mode = .standby → ∀ x, t.phaseString x = s.phaseString x ∧
        (t.phaseString x).map (fun p => (t.entry p).position) = (List.range (t.stringLength x)).map some) ∧
      (∀ p, t.link p = { s.link p with transmit := if (s.link p).state.sends
        then (s.link p).transmit ++ [s.urgentFrame p .block] else (s.link p).transmit }) ∧
      t = { s with mode := .safeStop, lines := lines, log := log s.mode .normal 0, cli := cli, roster := t.roster,
                   links := t.links }) ∧
    (s.lines.safetyStopN = true → s.mode = .safeStop → exec .safetyStopFall s = .next { s with lines := lines }) ∧
    (s.lines.safetyStopN = true → exec .safetyStopRise s = .next s) ∧
    (s.lines.safetyStopN = false → exec .safetyStopFall s = .next s ∧
      exec .safetyStopRise s = .next { s with lines := { s.lines with safetyStopN := true } })

/-- R164, R49, R169: the levels of the three output lines, in every state. -/
def Obligations.OutputLinesFollowMode : Prop :=
  ∀ s : State,
    (s.brakeDemand = true ↔ s.mode ≠ .run ∨ s.lines.resetN = false) ∧
    (s.tripLine = true ↔ s.mode = .tripped ∧ s.lines.resetN = true) ∧
    (s.torqueGap = true ↔ s.mode = .run ∧ s.rsq.nest ≠ [] ∧ s.lines.resetN = true ∧
      (s.rsq.stage = .inhibit ∨ s.rsq.stage = .isolate ∨ s.rsq.stage = .remap ∨ s.rsq.stage = .align ∨
        s.rsq.stage = .awaitGrant)) ∧
    ¬(s.brakeDemand = true ∧ s.torqueGap = true)

/-! ### The period start -/

/-- R94, R95, R53, R77, R141, R144, R118, R146 and R147: what every period start does, in whatever order the open steps
are taken (`order`). The replies that stand before a digest of the list are sent before it begins, and the digests have
left the list (DEDUCED from R148, log 8); `b` is the part then, with s's lines and configuration record. The flags of
the period just ended have gone into the digest and the event flag set is clear when the blocks respond, so that a flag
no block raises at a period start is clear after it. -/
def Obligations.PeriodStartInEveryOrder : Prop :=
  ∀ (ok : Bool) (order : List PsStep) (s : State), s.Settled → let b := s.sendDue
    b.lines = s.lines ∧ b.settings = s.settings ∧ b.ctu.counter = s.ctu.counter ∧
    ∃ t : State, exec (.periodStart ok order) s = .next t ∧
    t.Settled ∧
    t.ctu.counter = s.ctu.counter + 1 ∧ t.ctu.position = 0 ∧ t.ctu.pInForce = s.settings.p ∧
    t.ctu.bases = s.settings.bases ∧
    t.lines = { s.lines with bypassSupplyOk := ok } ∧
    t.bau.supply = ⟨b.bau.supply.middle, b.bau.supply.newest, ok⟩ ∧
    t.rtu.held = b.cli.current.getD b.rtu.held ∧ t.rtu.fresh = b.cli.current.isSome ∧ t.cli.current = none ∧
    t.cli.holdCount = (if b.cli.current.isSome then 0 else min s.settings.refHoldLimit (b.cli.holdCount + 1)) ∧
    t.ssc.leakCount = (if s.settings.leakInterval ≤ b.ssc.leakCount + 1 then 0 else b.ssc.leakCount + 1) ∧
    t.cli.reported = b.cli.flags ∧
    (∀ x ∈ [Flag.clip, .note, .tripCause, .refOverrun, .refDuplicate, .refBadCrc, .motionInvalid, .grantStale,
      .reqDropped], hasFlag t.cli.flags x = false) ∧
    t.cli.upstream = b.cli.upstream.filter (fun f => !f.isDigest) ++
      [.digest { period := s.ctu.counter, mode := b.mode, stage := b.rsq.stage, restartNumber := b.rsq.restartNumber,
                 nestDepth := b.rsq.nest.length, gapCount := b.rsq.gapCount,
                 lengths := ⟨(b.phaseString .a).length, (b.phaseString .b).length, (b.phaseString .c).length⟩,
                 holdCount := b.cli.holdCount, flags := b.cli.flags,
                 newestLog := b.log.records.getLast?.map (fun r => r.sequence),
                 buffered := bit b.mga.buf0.full + bit b.mga.buf1.full }] ∧
    t.cli.lastSeq = b.cli.lastSeq ∧ t.cli.motion = b.cli.motion ∧
    t = { b with lines := t.lines, mode := t.mode, roster := t.roster, policyActive := t.policyActive, rsq := t.rsq,
                 bau := t.bau, rebalActive := t.rebalActive, rtu := t.rtu, ctu := t.ctu,
                 screenActive := t.screenActive, ssc := t.ssc, links := t.links, cli := t.cli,
                 mga := { b.mga with periodMarks := t.mga.periodMarks, recoveryMarks := t.mga.recoveryMarks },
                 log := t.log, ps := t.ps }

/-- R85, R125, R126, R131, R132 and R133: the ports after a period start, in whatever order; `b` is the part once the
replies due are sent (log 8). A port in LINKING counts where a period frame was sent, a port in UP or MISSING that
accepted no status misses and is MISSING, and either enters LOST at its limit; the status-accepted mark is cleared. Every
port then in LINKING, UP or MISSING has at the tail of its list its period frame: the command is the first row of the
table that applies, the pair the phase pair in a SWITCH frame and the neutral pair otherwise, trim and load those of its
plan, in a BLOCK frame in ALIGN only. Before it stand the urgent BLOCKs of the period start, and before these the frames
not yet sent; how many those are is a free value (log 7). The force-once mark is consumed by a ZERO and by nothing
else. -/
def Obligations.PeriodFramesComposed : Prop :=
  ∀ (ok : Bool) (order : List PsStep) (s : State), s.Settled → let b := s.sendDue
    ∃ t : State, exec (.periodStart ok order) s = .next t ∧
    ∀ p,
      let l := b.link p
      let counts := l.state = .linking ∧ l.tagSent.isSome = true
      let misses := (l.state = .up ∨ l.state = .missing) ∧ l.accepted = false
      let loses := (counts ∧ 64 ≤ l.linkingCount + 1) ∨ (misses ∧ s.settings.missLimit ≤ l.missCount + 1)
      let unsent := l.transmit.drop (Config.framesSent p l.moments)
      t.link p = { l with
        state := if loses then .lost else if misses then .missing else l.state
        linkingCount := if counts then l.linkingCount + 1 else l.linkingCount
        missCount := if misses then l.missCount + 1 else l.missCount
        accepted := false, tagSent := (t.link p).tagSent, transmit := (t.link p).transmit
        forceOnce := (t.link p).forceOnce, lastCommand := (t.link p).lastCommand
        moments := if loses then l.moments + 2 else l.moments + 1 } ∧
      ((t.link p).state = .idle ∨ (t.link p).state = .lost →
        (t.link p).forceOnce = l.forceOnce ∧ (t.link p).lastCommand = l.lastCommand ∧
        (loses → (t.link p).tagSent = none ∧ (t.link p).transmit.length ≤ 1) ∧
        (¬loses → (t.link p).tagSent = l.tagSent ∧ (t.link p).transmit = unsent)) ∧
      ((t.link p).state = .linking ∨ (t.link p).state = .up ∨ (t.link p).state = .missing →
        ∃ c, (t.link p).lastCommand = some c ∧
        (t.link p).tagSent = some (t.ctu.counter.setWidth 8) ∧
        (let plan := if c = .block ∧ ¬(t.mode = .run ∧ t.rsq.stage = .align) then .nothing else (t.cport p).sent
         let urgent := ((t.link p).transmit.drop unsent.length).dropLast
         (t.link p).transmit = unsent ++ urgent ++
          [{ urgent := false, port := p, tag := t.ctu.counter.setWidth 8, command := c, order := (t.entry p).bypassOrder
             pair := if c = .switch then t.rtu.pairs.get (phaseOf p) else neutralPair s.settings.p
             trim := match plan with
               | .trim x => x
               | _ => 0
             load := match plan with
               | .load n down => some (n, down)
               | _ => none }] ∧
          ∀ f ∈ urgent, f = { urgent := true, port := p, tag := t.ctu.counter.setWidth 8, command := .block
                              order := f.order, pair := neutralPair s.settings.p, trim := 0, load := none }) ∧
        ((t.entry p).role ≠ .active ∨ t.mode ≠ .run ∨ ¬(t.rsq.stage = .normal ∨ t.rsq.stage = .resume) ∨
          (t.link p).state = .linking → c = .block ∧ (t.link p).forceOnce = l.forceOnce) ∧
        ((t.entry p).role = .active → t.mode = .run → t.rsq.stage = .normal ∨ t.rsq.stage = .resume →
          (t.link p).state ≠ .linking →
          (c = if l.forceOnce || l.forceContinuous then .zero else .switch) ∧
          (t.link p).forceOnce = false))

/-- R76 to R86, R91: the computation of a period start, in whatever order its steps are taken. Where the period that
begins is no NORMAL or RESUME period of RUN, whatever took it out of them (a trip, a latch, a stage that goes on), none is
made and the last one stays. Where it is one, the entry of the deficit tuple is used on the reference taken and at the
ramp gain of the period: the transform is rounded and clamped at the ceiling, then ramped, then scaled by N_nom/N_x,
rounded and clamped at full scale, and the pair is that of its index; each clamp that acts is counted on its phase, and
raises its flag. The bank is the one the period start leaves, or, where the computation is taken before a PERIOD commit,
the one it found. `b` is the part once the replies due are sent (log 8). -/
def Obligations.ComputationAtPeriodStart : Prop :=
  ∀ (ok : Bool) (order : List PsStep) (s : State), s.Settled → let b := s.sendDue
    ∃ t : State, exec (.periodStart ok order) s = .next t ∧
    (b.mode ≠ .run ∨ b.rsq.stage = .inhibit ∨ b.rsq.stage = .isolate ∨ b.rsq.stage = .remap ∨ b.rsq.stage = .align ∨
        t.mode ≠ .run ∨ (t.rsq.stage ≠ .normal ∧ t.rsq.stage ≠ .resume) →
      t.rtu = { b.rtu with held := b.cli.current.getD b.rtu.held, fresh := b.cli.current.isSome } ∧
      hasFlag t.cli.flags .xformClamp = false ∧ hasFlag t.cli.flags .cellClamp = false) ∧
    (t.mode = .run → t.rsq.stage = .normal ∨ t.rsq.stage = .resume →
      ∃ bank, (bank = b.rebalActive ∨ bank = t.rebalActive) ∧
      (order.head? = some .compute → bank = b.rebalActive) ∧
      (.compute ∉ order → .compose ∉ order → bank = t.rebalActive) ∧
      ∀ i, rebalIndex t.deficits = some i →
      let e := bank[i.val]
      let v := b.cli.current.getD b.rtu.held
      let raw := fun x => roundDiv ((e.coef.get x).a.toInt * v.a.toInt + (e.coef.get x).b.toInt * v.b.toInt +
        (e.coef.get x).c.toInt * v.c.toInt) 16384
      let top : Int := (min e.ceiling 32767 : Nat)
      let index := fun x => roundDiv (t.rtu.yRamped.get x * s.settings.nNom) (t.stringLength x)
      t.rtu.entryIndex = some i ∧ t.rtu.gain = t.rsq.rampGain ∧
      (∀ x, t.rtu.y.get x = max (-top) (min top (raw x))) ∧
      (∀ x, t.rtu.yRamped.get x = roundDiv (t.rtu.y.get x * t.rsq.rampGain) 1024) ∧
      (∀ x, t.stringLength x ≠ 0 → t.rtu.m.get x = max (-32767) (min 32767 (index x))) ∧
      (∀ x, ((t.rtu.pairs.get x).cL : Int) = max 0 ((s.settings.p * (t.rtu.m.get x + 32768) + 32768) / 65536) ∧
        (t.rtu.pairs.get x).cR = s.settings.p - (t.rtu.pairs.get x).cL) ∧
      (∀ x, t.rtu.xformClamps.get x = if t.rtu.y.get x = raw x then b.rtu.xformClamps.get x
        else saturate 65535 (b.rtu.xformClamps.get x)) ∧
      (∀ x, t.stringLength x ≠ 0 → t.rtu.cellClamps.get x = if t.rtu.m.get x = index x then b.rtu.cellClamps.get x
        else saturate 65535 (b.rtu.cellClamps.get x)) ∧
      (hasFlag t.cli.flags .xformClamp = true ↔ ∃ x, t.rtu.y.get x ≠ raw x) ∧
      ((∀ x, t.stringLength x ≠ 0) →
        (hasFlag t.cli.flags .cellClamp = true ↔ ∃ x, t.rtu.m.get x ≠ index x)))

/-- R96, with R97, R99, R100 and R102 to R104: after a period start, in whatever order its steps were taken, every
ACTIVE and ISOLATING port has its target on the strings as they then stand, and no other port has one. In NORMAL and
RESUME of RUN an ACTIVE port is given a trim from its usable capture of the period just ended, or trim 0; at the first
period start of an alignment every string cell is given the phase load of its target, its marks cleared and the window
start recorded; at a later one a cell whose last judged error exceeds A_tol is loaded again, and every other is trimmed,
an unaligned silent cell losing its passes; a period start that ends ALIGN is none of these (DEDUCED, log 37). Every other
port, and every port that is sent no frame, is given nothing
(a plan without trim and load is "nothing": DEDUCED, log 15). `b` is the part once the replies due are sent (log 8). -/
def Obligations.CarrierPlansAtPeriodStart : Prop :=
  ∀ (ok : Bool) (order : List PsStep) (s : State), s.Settled → let b := s.sendDue
    ∃ t : State, exec (.periodStart ok order) s = .next t ∧
    (t.mode = .run → t.rsq.stage = .align →
      t.ctu.windowStart = if b.rsq.stage = .align ∧ b.ctu.windowStart.isSome = true then b.ctu.windowStart
        else some t.ctu.counter) ∧
    (b.mode = .run → b.rsq.stage = .align → t.mode ≠ .run ∨ t.rsq.stage ≠ .align → t.ctu.windowStart = none) ∧
    ∀ p,
      let c := b.cport p
      let e := t.entry p
      let string := e.role = .active ∨ e.role = .isolating
      let sends := (t.link p).state = .linking ∨ (t.link p).state = .up ∨ (t.link p).state = .missing
      let aligning := t.mode = .run ∧ t.rsq.stage = .align
      let begins := ¬(b.rsq.stage = .align ∧ b.ctu.windowStart.isSome = true)
      let reloads := ∃ x, c.lastError = some x ∧ s.settings.aTol < x.natAbs
      let load := loadOf ((t.cport p).target.getD 0) e.linkDelay s.settings.p
      (string → (t.cport p).target = some ((s.settings.bases.get (phaseOf p) +
        e.position.getD 0 * s.settings.p / t.stringLength (phaseOf p)) % (2 * s.settings.p))) ∧
      (¬string → (t.cport p).target = none) ∧
      (t.cport p).capture = c.capture ∧
      (¬sends → (t.cport p).sent = .nothing) ∧
      (¬(aligning ∧ string) → t.cport p = { c with target := (t.cport p).target, sent := (t.cport p).sent }) ∧
      (aligning → string → begins ∨ reloads →
        t.cport p = { c with target := (t.cport p).target, sent := if sends then load else .nothing
                             lastError := none, passCount := 0, aligned := false }) ∧
      (aligning → string → ¬begins → ¬reloads →
        t.cport p = { c with target := (t.cport p).target, sent := (t.cport p).sent
                             passCount := if c.aligned = false ∧ (b.link p).accepted = false then 0 else c.passCount }) ∧
      ((aligning ∧ string ∧ ¬begins ∧ ¬reloads) ∨
          (t.mode = .run ∧ (t.rsq.stage = .normal ∨ t.rsq.stage = .resume) ∧ e.role = .active) → sends →
        (∀ a x, (b.link p).accepted = true → c.sent = .nothing ∨ c.sent = .trim 0 → c.capture = some a →
          a.error = some x → (t.cport p).sent = .trim (trimOf x s.settings.j)) ∧
        ((b.link p).accepted = false ∨ ¬(c.sent = .nothing ∨ c.sent = .trim 0) ∨
          c.capture.bind (fun a => a.error) = none → (t.cport p).sent = .trim 0)) ∧
      (¬(aligning ∧ string) →
        ¬(t.mode = .run ∧ (t.rsq.stage = .normal ∨ t.rsq.stage = .resume) ∧ e.role = .active) →
        (t.cport p).sent = .nothing)

/-! ### The control link -/

/-- R140, with R141 to R143 and R47: a REF frame that repeats the last accepted sequence raises REF_DUPLICATE and yields
nothing. Any other is accepted: it becomes the last accepted sequence and the current-period reference, its motion code
the motion state held, and its grant, where it is fresh, the grant pending; the flags are those of a second reference
in a period, of motion code 7 and of a grant that is not fresh. -/
def Obligations.RefFrameAccepted : Prop :=
  ∀ (f : RefFrame) (s : State), s.Settled →
    (s.cli.lastSeq = some f.seq → exec (.refFrame f) s =
      .next { s with cli := { s.cli with flags := withFlag s.cli.flags .refDuplicate } }) ∧
    (s.cli.lastSeq ≠ some f.seq → ∃ t : State, exec (.refFrame f) s = .next t ∧
      t = { s with cli := { s.cli with lastSeq := some f.seq, current := some ⟨f.vA, f.vB, f.vC⟩,
                                       motion := t.cli.motion, flags := t.cli.flags },
                   rsq := { s.rsq with grantPending := t.rsq.grantPending } } ∧
      (f.motionCode = 0#3 → t.cli.motion = .braked) ∧ (f.motionCode = 1#3 → t.cli.motion = .proving) ∧
      (f.motionCode = 2#3 → t.cli.motion = .accelerating) ∧ (f.motionCode = 3#3 → t.cli.motion = .running) ∧
      (f.motionCode = 4#3 → t.cli.motion = .decelerating) ∧ (f.motionCode = 5#3 → t.cli.motion = .creeping) ∧
      (f.motionCode = 6#3 → t.cli.motion = .levelling) ∧ (f.motionCode = 7#3 → t.cli.motion = s.cli.motion) ∧
      (f.grant = true ∧ s.rsq.stage = .awaitGrant ∧ f.token = s.rsq.restartNumber.setWidth 8 →
        t.rsq.grantPending = true) ∧
      (¬(f.grant = true ∧ s.rsq.stage = .awaitGrant ∧ f.token = s.rsq.restartNumber.setWidth 8) →
        t.rsq.grantPending = s.rsq.grantPending) ∧
      (∀ x, hasFlag t.cli.flags x = true ↔ hasFlag s.cli.flags x = true ∨
        (x = .refOverrun ∧ s.cli.current.isSome = true) ∨ (x = .motionInvalid ∧ f.motionCode = 7#3) ∨
        (x = .grantStale ∧ f.grant = true ∧
          ¬(s.rsq.stage = .awaitGrant ∧ f.token = s.rsq.restartNumber.setWidth 8))))

/-- R139 and R151: a downstream frame that fails the form check raises REF_BAD_CRC and changes nothing else, and bytes
that pass it are routed by their type (log 21). A request frame takes buffer 0 if FREE, else buffer 1 if FREE, with its
place in the order of arrival; with neither FREE it is dropped and REQ_DROPPED is raised, also where it is the second of
two that met one FREE buffer (DEDUCED: R151 against R163's third row, log 43). -/
def Obligations.DownstreamFramesRouted : Prop :=
  ∀ s : State, s.Settled →
    (∀ bytes, parseDownstream bytes = .bad → exec (.badDownstreamFrame bytes) s =
      .next { s with cli := { s.cli with flags := withFlag s.cli.flags .refBadCrc } }) ∧
    (∀ bytes f, parseDownstream bytes = .ref f → exec (.badDownstreamFrame bytes) s = exec (.refFrame f) s) ∧
    (∀ bytes f, parseDownstream bytes = .mgt f → exec (.badDownstreamFrame bytes) s = exec (.mgtFrame f) s) ∧
    (∀ f : MgtFrame, f.payload.length ≤ 120 →
      (s.mga.buf0 = .free → exec (.mgtFrame f) s =
        .next { s with mga := { s.mga with buf0 := .waiting f s.mga.arrivals, arrivals := s.mga.arrivals + 1 } }) ∧
      (s.mga.buf0 ≠ .free → s.mga.buf1 = .free → exec (.mgtFrame f) s =
        .next { s with mga := { s.mga with buf1 := .waiting f s.mga.arrivals, arrivals := s.mga.arrivals + 1 } }) ∧
      (s.mga.buf0 ≠ .free → s.mga.buf1 ≠ .free → exec (.mgtFrame f) s =
        .next { s with cli := { s.cli with flags := withFlag s.cli.flags .reqDropped } }))

/-- R148, R151 and R160: when the oldest reply has been sent it has left the list, with the digests placed before it,
and its buffer is FREE; when it is the DONE of a pending WARM_RESET, the warm reset takes effect (DEDUCED, log 10).
With no reply on the list the event does not take place (DESIGN CHOICE, log 3). What a period start takes as sent before it
begins are the replies before the last digest of the list, one after another by this same event, and none where no reply
stands before a digest (DEDUCED from R148, log 8). -/
def Obligations.ReplySentFreesBuffer : Prop :=
  ∀ s : State, s.Settled →
    (∀ (pre post : List UpFrame) (b : Fin 2) (r : Reply), s.cli.upstream = pre ++ .reply b r :: post →
      (∀ x ∈ pre, x.isDigest = true) →
      (s.mga.warmPending = false ∨ r.code.toNat ≠ 8 ∨ r.result ≠ .done →
        exec .replySent s = .next { s with cli := { s.cli with upstream := post },
                                           mga := if b = 0 then { s.mga with buf0 := .free }
                                             else { s.mga with buf1 := .free } }) ∧
      (s.mga.warmPending = true → r.code.toNat = 8 → r.result = .done →
        exec .replySent s = exec .warmResetEffect s)) ∧
    ((∀ x ∈ s.cli.upstream, x.isDigest = true) → exec .replySent s = .next s) ∧
    ((∀ x ∈ s.cli.upstream, x.isDigest = false) → s.sendDue = s) ∧
    ∀ (pre post : List UpFrame) (d : Digest), s.cli.upstream = pre ++ .digest d :: post →
      (∀ x ∈ post, x.isDigest = false) →
      ((∀ x ∈ pre, x.isDigest = true) → s.sendDue = s) ∧
      ((∃ x ∈ pre, x.isDigest = false) → ∃ t : State, exec .replySent s = .next t ∧ s.sendDue = t.sendDue)

/-! ### Status frames, screening and latches -/

/-- R129: the first check that fails discards the status frame and counts it on its own count, saturating at 65535;
nothing else changes. -/
def Obligations.StatusFrameDiscarded : Prop :=
  ∀ (p : Port) (bytes : List Byte) (late : Bool) (s : State), s.Settled →
    (s.checkSts bytes = none → exec (.stsFrame p ⟨bytes, late⟩) s =
      .next { s with links := s.links.set p.val { s.link p with malformed := saturate 65535 (s.link p).malformed } }) ∧
    (∀ f, s.checkSts bytes = some f → f.port.toNat ≠ p.val → exec (.stsFrame p ⟨bytes, late⟩) s =
      .next { s with links := s.links.set p.val { s.link p with wrongPort := saturate 65535 (s.link p).wrongPort } }) ∧
    (∀ f, s.checkSts bytes = some f → f.port.toNat = p.val →
      (s.link p).state = .idle ∨ (s.link p).state = .lost ∨ (s.link p).tagSent ≠ some f.tag →
      exec (.stsFrame p ⟨bytes, late⟩) s =
        .next { s with links := s.links.set p.val { s.link p with stale := saturate 65535 (s.link p).stale } }) ∧
    (∀ f, s.checkSts bytes = some f → f.port.toNat = p.val →
      (s.link p).state = .linking ∨ (s.link p).state = .up ∨ (s.link p).state = .missing →
      (s.link p).tagSent = some f.tag → (s.link p).accepted = true → exec (.stsFrame p ⟨bytes, late⟩) s =
        .next { s with links := s.links.set p.val { s.link p with repeated := saturate 65535 (s.link p).repeated } })

/-- R130, R4, R6 and R98: an accepted status frame moves its port to UP, clears its miss count and counts the frame;
contact, status word and voltage are recorded, a CLOSED contact clears blind, and the capture is recorded with the
error formed from it against the port's target. Whatever else the frame leads to, the tables, the configuration, the
link states of the other ports and the transform keep their values. It holds of a frame that arrives together with the
period start after it too (`late`, log 38): such a one alone may leave a latch handed over. -/
def Obligations.StatusFrameAccepted : Prop :=
  ∀ (p : Port) (bytes : List Byte) (late : Bool) (f : StsFrame) (s : State), s.Settled → s.checkSts bytes = some f →
    f.port.toNat = p.val → (s.link p).state = .linking ∨ (s.link p).state = .up ∨ (s.link p).state = .missing →
    (s.link p).tagSent = some f.tag → (s.link p).accepted = false →
    ∃ t : State, exec (.stsFrame p ⟨bytes, late⟩) s = .next t ∧
      t.link p = { s.link p with
        state := .up, accepted := true, missCount := 0, framesAccepted := (s.link p).framesAccepted + 1
        linkingCount := if (s.link p).state = .linking then 0 else (s.link p).linkingCount
        transmit := (t.link p).transmit } ∧
      (∀ q, q ≠ p → t.link q = { s.link q with transmit := (t.link q).transmit }) ∧
      (f.contactCode = 0#3 → (t.entry p).contact = .opened) ∧ (f.contactCode = 1#3 → (t.entry p).contact = .closed) ∧
      (f.contactCode = 2#3 → (t.entry p).contact = .moving) ∧ (f.contactCode = 3#3 → (t.entry p).contact = .unknown) ∧
      (t.entry p).lastStatus = f.word ∧ (t.entry p).vdc = f.vdc.toNat ∧
      (t.entry p).blind = ((s.entry p).blind && f.contactCode != 1#3) ∧
      (∀ q, q ≠ p → (t.entry q).contact = (s.entry q).contact ∧ (t.entry q).lastStatus = (s.entry q).lastStatus ∧
        (t.entry q).vdc = (s.entry q).vdc ∧ (t.entry q).blind = (s.entry q).blind) ∧
      (∀ q, (t.entry q).bypassOrder = (s.entry q).bypassOrder ∧ (t.entry q).installed = (s.entry q).installed ∧
        (t.entry q).rank = (s.entry q).rank ∧ (t.entry q).linkDelay = (s.entry q).linkDelay) ∧
      (t.cport p).capture = some
        { raw := f.capture.toNat
          corrected := correctedOf f.capture.toNat (s.entry p).linkDelay s.ctu.pInForce
          error := (s.cport p).target.map (fun g =>
            wrapError ((correctedOf f.capture.toNat (s.entry p).linkDelay s.ctu.pInForce : Int) - g)
              s.ctu.pInForce) } ∧
      (∀ q, q ≠ p → t.cport q = s.cport q) ∧
      t = { s with mode := t.mode, roster := t.roster, rsq := t.rsq, bau := t.bau,
                   ctu := { s.ctu with ports := t.ctu.ports, windowStart := t.ctu.windowStart },
                   ssc := { s.ssc with hits := t.ssc.hits, handed := t.ssc.handed }, links := t.links,
                   cli := { s.cli with flags := t.cli.flags }, log := t.log, ps := t.ps } ∧
      (late = false → t.ssc.handed = [])

/-- R61, R12, R99 and R104, with R130: the state in which an accepted status frame leaves the part before its word is
screened. The contact confirms the port's entry in flight where it equals that entry's direction: the entry leaves the
queue and the retry mark is cleared; a FAILED cell that reports CLOSED becomes BYPASSED; no waiting entry and no other
port's entry is touched. The capture is judged unless it answers a phase load: it becomes the last judged error, and in
ALIGN it counts a pass of a string cell within A_tol, two passes marking the cell aligned, or clears pass count and
mark; that it does so from START on, before alignment begins, is DEDUCED (log 36). That the contact is taken before the
word is the model's choice (DESIGN CHOICE, log 34). -/
def Obligations.StatusFrameConfirmsAndJudges : Prop :=
  ∀ (p : Port) (bytes : List Byte) (late : Bool) (f : StsFrame) (s : State), s.Settled → s.checkSts bytes = some f →
    f.port.toNat = p.val → (s.link p).state = .linking ∨ (s.link p).state = .up ∨ (s.link p).state = .missing →
    (s.link p).tagSent = some f.tag → (s.link p).accepted = false →
    ∃ u : State, exec (.stsFrame p ⟨bytes, late⟩) s = .next (u.screenWord p f.word late) ∧
      u = { s with links := u.links, roster := u.roster, bau := u.bau, ctu := { s.ctu with ports := u.ctu.ports } } ∧
      (∀ q, q ≠ p → u.link q = s.link q ∧ u.entry q = s.entry q ∧ u.cport q = s.cport q) ∧
      (u.link p).transmit = (s.link p).transmit ∧
      u.entry p = { s.entry p with
        role := if (s.entry p).role = .failed ∧ f.contactCode = 1#3 then .bypassed else (s.entry p).role
        contact := contactOf f.contactCode, lastStatus := f.word, vdc := f.vdc.toNat
        blind := (s.entry p).blind && f.contactCode != 1#3 } ∧
      (∀ a rest, s.bau.queue = a :: rest → a.issued.isSome = true → a.port = p →
        (a.dir = .opened ∧ f.contactCode = 0#3) ∨ (a.dir = .closed ∧ f.contactCode = 1#3) →
        u.bau = { s.bau with queue := rest, retry := s.bau.retry.set p.val false }) ∧
      (s.bau.queue = [] ∨ (∃ a rest, s.bau.queue = a :: rest ∧ (a.issued = none ∨ a.port ≠ p ∨
        ¬((a.dir = .opened ∧ f.contactCode = 0#3) ∨ (a.dir = .closed ∧ f.contactCode = 1#3)))) → u.bau = s.bau) ∧
      (u.cport p).target = (s.cport p).target ∧ (u.cport p).sent = (s.cport p).sent ∧
      ((s.cport p).target = none ∨ (∃ n down, (s.cport p).sent = .load n down) →
        u.cport p = { s.cport p with capture := (u.cport p).capture }) ∧
      (∀ g, (s.cport p).target = some g → (∀ n down, (s.cport p).sent ≠ .load n down) →
        let e := wrapError ((correctedOf f.capture.toNat (s.entry p).linkDelay s.ctu.pInForce : Int) - g) s.ctu.pInForce
        (u.cport p).lastError = some e ∧
        (s.mode = .run → s.rsq.stage = .align → (u.entry p).role = .active ∨ (u.entry p).role = .isolating →
          (e.natAbs ≤ s.settings.aTol → (u.cport p).passCount = min 2 ((s.cport p).passCount + 1) ∧
            (u.cport p).aligned = ((s.cport p).aligned || decide (1 ≤ (s.cport p).passCount))) ∧
          (s.settings.aTol < e.natAbs → (u.cport p).passCount = 0 ∧ (u.cport p).aligned = false)) ∧
        (s.mode ≠ .run ∨ s.rsq.stage ≠ .align ∨ ¬((u.entry p).role = .active ∨ (u.entry p).role = .isolating) →
          (u.cport p).passCount = (s.cport p).passCount ∧ (u.cport p).aligned = (s.cport p).aligned))

/-- R113 to R116: a status word that no valid entry matches, that is classified PASS, or whose cell is neither ACTIVE
nor SPARE leaves no mark but the hit count of the deciding entry; NOTE counts on the cell and raises NOTE; CLIP below
clip_limit fills the bucket, raises CLIP, and puts an urgent ZERO behind the port's frames exactly for an ACTIVE cell
in RUN in NORMAL or RESUME, its neutral pair at the P in force (DEDUCED, log 30). The deciding entry is the lowest valid
one that agrees with the word under its mask. -/
def Obligations.ScreenedWordsWithoutLatch : Prop :=
  ∀ (s : State) (p : Port) (w : Half) (late : Bool),
    ((s.entry p).role ≠ .active → (s.entry p).role ≠ .spare → s.screenWord p w late = s) ∧
    ((∀ i : Fin 16, (s.screenActive[i.val]).valid = true →
      w &&& (s.screenActive[i.val]).mask ≠ (s.screenActive[i.val]).pattern &&& (s.screenActive[i.val]).mask) →
      s.screenWord p w late = s) ∧
    (∀ i : Fin 16, (s.entry p).role = .active ∨ (s.entry p).role = .spare →
      (s.screenActive[i.val]).valid = true →
      w &&& (s.screenActive[i.val]).mask = (s.screenActive[i.val]).pattern &&& (s.screenActive[i.val]).mask →
      (∀ j : Fin 16, j < i → (s.screenActive[j.val]).valid = true →
        w &&& (s.screenActive[j.val]).mask ≠ (s.screenActive[j.val]).pattern &&& (s.screenActive[j.val]).mask) →
      let hits := s.ssc.hits.set i.val (saturate 65535 s.ssc.hits[i.val])
      let e := s.entry p
      let l := s.link p
      ((s.screenActive[i.val]).action = .pass → s.screenWord p w late = { s with ssc := { s.ssc with hits := hits } }) ∧
      ((s.screenActive[i.val]).action = .note → s.screenWord p w late =
        { s with ssc := { s.ssc with hits := hits },
                 roster := s.roster.set p.val { e with noteCount := saturate 65535 e.noteCount },
                 cli := { s.cli with flags := withFlag s.cli.flags .note } }) ∧
      ((s.screenActive[i.val]).action = .clip → e.clipBucket + 1 < s.settings.clipLimit → s.screenWord p w late =
        { s with ssc := { s.ssc with hits := hits },
                 roster := s.roster.set p.val { e with clipBucket := e.clipBucket + 1 },
                 cli := { s.cli with flags := withFlag s.cli.flags .clip },
                 links :=
                   if s.mode = .run ∧ (s.rsq.stage = .normal ∨ s.rsq.stage = .resume) ∧ e.role = .active then
                     s.links.set p.val { l with transmit := l.transmit ++
                       [{ urgent := true, port := p, tag := s.ctu.counter.setWidth 8, command := .zero,
                          order := e.bypassOrder, pair := neutralPair s.ctu.pInForce, trim := 0, load := none }] }
                   else s.links }))

/-- R114, R117, R119 and R121, with R36, R45, R120 and R122: a CLIP that brings the bucket to clip_limit empties it and
becomes a CLIP_ESCALATED latch; a LATCH gives a LATCH_STATUS latch; both carry the word and the deciding entry, and are
taken at once, or, in RUN and from a frame that arrives together with the period start after it (`late`), handed over and
waiting: that the sender says which is the model's choice (DESIGN CHOICE, log 38). A TRIP raises TRIP_CAUSE in every mode:
in RUN it asks for a trip, and outside RUN it writes a report and leaves mode and roster alone. The latches handed over
are taken in their order after the period start that comes next, which is the one that would be taken without them; before
any other command, and before the next step on an empty queue, they are taken first. A latch that finds its cell ISOLATING
has no effect at all. -/
def Obligations.ScreenedWordsThatRemoveOrTrip : Prop :=
  (∀ (s : State) (p : Port) (w : Half) (i : Fin 16) (late : Bool),
    (s.entry p).role = .active ∨ (s.entry p).role = .spare → s.deciding? w = some i →
    let u : State := { s with ssc := { s.ssc with hits := s.ssc.hits.set i.val (saturate 65535 s.ssc.hits[i.val]) } }
    let e := s.entry p
    let hand := fun (v : State) (l : Latch) =>
      if late = true ∧ s.mode = .run then { v with ssc := { v.ssc with handed := s.ssc.handed ++ [l] } }
      else v.takeLatch l
    ((s.screenActive[i.val]).action = .latch → s.screenWord p w late =
      hand u { kind := .latchStatus, port := p, word := some (w, i) }) ∧
    ((s.screenActive[i.val]).action = .clip → s.settings.clipLimit ≤ e.clipBucket + 1 → s.screenWord p w late =
      hand { u with roster := s.roster.set p.val { e with clipBucket := 0 },
                    cli := { s.cli with flags := withFlag s.cli.flags .clip } }
        { kind := .clipEscalated, port := p, word := some (w, i) }) ∧
    ((s.screenActive[i.val]).action = .trip → s.mode = .run → s.screenWord p w late =
      { u with cli := { s.cli with flags := withFlag s.cli.flags .tripCause } }.requestTrip
        { cause := .tripStatus, port := some p, word := some (w, i) }) ∧
    ((s.screenActive[i.val]).action = .trip → s.mode ≠ .run → s.screenWord p w late =
      { u with cli := { s.cli with flags := withFlag (withFlag s.cli.flags .tripCause) .logWritten },
               log := { next := s.log.next + 1, records := keepSixteen (s.log.records ++
                 [{ sequence := s.log.next, stamp := s.ctu.counter, port := some p, kind := .tripStatus,
                    word := some (w, i), mode := s.mode, stage := .normal, restartNumber := s.rsq.restartNumber,
                    nestDepth := 0, deficits := none }]) } })) ∧
  (∀ (handed : List Latch) (s : State), s.Settled →
    let u : State := { s with ssc := { s.ssc with handed := handed } }
    let v := handed.foldl State.takeLatch s
    (∀ ok order, ∃ t : State, exec (.periodStart ok order) s = .next t ∧
      exec (.periodStart ok order) u = .next (handed.foldl State.takeLatch t)) ∧
    (∀ c : Instr, (∃ f, c = .refFrame f) ∨ (∃ f, c = .mgtFrame f) ∨ (∃ bytes, c = .badDownstreamFrame bytes) ∨
      (∃ p bytes, c = .stsFrame p ⟨bytes, false⟩) ∨ (∃ x ∈ services, c = x.1) ∨ c = .unknownRequest ∨ c = .replySent ∨
      c = .warmResetEffect ∨ (c = .safetyStopFall ∧ s.lines.safetyStopN = true) ∨
      (c = .safetyStopRise ∧ s.lines.safetyStopN = false) → exec c u = exec c v) ∧
    (∀ p bytes, exec (.stsFrame p ⟨bytes, true⟩) u = .next (u.receiveSts p bytes true)) ∧
    (handed ≠ [] → s.pending = [] → step u = .next v)) ∧
  ∀ (s : State) (l : Latch), s.mode = .run → (s.entry l.port).role = .isolating → s.takeLatch l = s

/-- R36, R37, R34, R10, R24 and R172: a latch for an ACTIVE cell accepted in RUN with the nest list empty, under a
policy that allows it, opens an episode: the cell becomes ISOLATING and keeps its place, the first context is pushed
with the policy of the motion state held, the restart number counts, the gap count is 0, INHIBIT is entered with an
urgent BLOCK on every linked port, and the latch is counted, flagged and logged at depth 1. That k is 0 then is
DEDUCED (log 19), and so is that the urgent BLOCK's neutral pair is at the P in force (log 30). -/
def Obligations.LatchOpensEpisode : Prop :=
  ∀ (s : State) (l : Latch), s.mode = .run → (s.entry l.port).role = .active → (s.entry l.port).deferred = false →
    s.rsq.nest = [] → (s.policyActive[s.cli.motion.index.val]).restartAllowed = true →
    (s.link l.port).state ≠ .lost ∨ (s.policyActive[s.cli.motion.index.val]).blindAllowed = true →
    let t := s.takeLatch l
    t.rsq = { s.rsq with
      stage := .inhibit, inhibitCount := 0, restartNumber := s.rsq.restartNumber + 1, gapCount := 0
      grantPending := false, resumeIndex := 0, rampGain := 1024
      nest := [{ restartNumber := s.rsq.restartNumber + 1, interrupted := s.rsq.stage, deficits := t.deficits,
                 motion := s.cli.motion, gapCount := 0,
                 policy := some s.policyActive[s.cli.motion.index.val] }] } ∧
    t.entry l.port = { s.entry l.port with
      role := .isolating, latchCount := saturate 255 (s.entry l.port).latchCount } ∧
    (∀ q, q ≠ l.port → t.entry q = s.entry q) ∧
    (∀ q, t.link q = { s.link q with transmit :=
      if (s.link q).state = .linking ∨ (s.link q).state = .up ∨ (s.link q).state = .missing then
        (s.link q).transmit ++ [{ urgent := true, port := q, tag := s.ctu.counter.setWidth 8, command := .block,
                                  order := (s.entry q).bypassOrder, pair := neutralPair s.ctu.pInForce, trim := 0,
                                  load := none }]
      else (s.link q).transmit }) ∧
    t.log = { next := s.log.next + 1, records := keepSixteen (s.log.records ++
      [{ sequence := s.log.next, stamp := s.ctu.counter, port := some l.port, kind := l.kind, word := l.word,
         mode := .run, stage := s.rsq.stage, restartNumber := s.rsq.restartNumber + 1, nestDepth := 1,
         deficits := none }]) } ∧
    t = { s with
      roster := t.roster, rsq := t.rsq, links := t.links, log := t.log, ps := t.ps
      bau := { s.bau with blindStart := s.bau.blindStart.set l.port.val (some s.ctu.counter) }
      ctu := { s.ctu with windowStart := none }
      cli := { s.cli with flags := withFlag (withFlag s.cli.flags .latchAccepted) .logWritten } }

/-- R40, R41, R34, R35, R36 and R24: a latch for an ACTIVE cell in ALIGN, AWAIT_GRANT or RESUME with an episode open
pushes a context and sends the recovery back to INHIBIT with an urgent BLOCK on every linked port and TORQUE_GAP
asserted; the gap count goes on, but starts again from 0 in RESUME. The latch is counted, flagged and logged at the new
depth, and the cell's blind wait starts. That k is 0 then is DEDUCED (log 19), and so is that the urgent BLOCK's neutral
pair is at the P in force (log 30). -/
def Obligations.LatchPushesContext : Prop :=
  ∀ (s : State) (l : Latch) (policy : PolicyEntry), s.mode = .run → (s.entry l.port).role = .active →
    (s.entry l.port).deferred = false → s.rsq.nest ≠ [] → s.episodePolicy = some policy →
    s.rsq.stage = .align ∨ s.rsq.stage = .awaitGrant ∨ s.rsq.stage = .resume →
    s.rsq.nest.length < policy.maxNest → (s.link l.port).state ≠ .lost ∨ policy.blindAllowed = true →
    let t := s.takeLatch l
    let gap := if s.rsq.stage = .resume then 0 else s.rsq.gapCount
    t.mode = .run ∧
    t.rsq = { s.rsq with
      stage := .inhibit, inhibitCount := 0, restartNumber := s.rsq.restartNumber + 1, gapCount := gap
      grantPending := false, resumeIndex := 0, rampGain := 1024
      nest := s.rsq.nest ++
        [{ restartNumber := s.rsq.restartNumber + 1, interrupted := s.rsq.stage, deficits := t.deficits,
           motion := s.cli.motion, gapCount := gap, policy := none }] } ∧
    t.entry l.port = { s.entry l.port with
      role := .isolating, latchCount := saturate 255 (s.entry l.port).latchCount } ∧
    (∀ q, q ≠ l.port → t.entry q = s.entry q) ∧
    (∀ q, t.link q = { s.link q with transmit :=
      if (s.link q).state = .linking ∨ (s.link q).state = .up ∨ (s.link q).state = .missing then
        (s.link q).transmit ++ [{ urgent := true, port := q, tag := s.ctu.counter.setWidth 8, command := .block,
                                  order := (s.entry q).bypassOrder, pair := neutralPair s.ctu.pInForce, trim := 0,
                                  load := none }]
      else (s.link q).transmit }) ∧
    t.log = { next := s.log.next + 1, records := keepSixteen (s.log.records ++
      [{ sequence := s.log.next, stamp := s.ctu.counter, port := some l.port, kind := l.kind, word := l.word,
         mode := .run, stage := s.rsq.stage, restartNumber := s.rsq.restartNumber + 1,
         nestDepth := s.rsq.nest.length + 1, deficits := none }]) } ∧
    t = { s with
      roster := t.roster, rsq := t.rsq, links := t.links, log := t.log, ps := t.ps
      bau := { s.bau with blindStart := s.bau.blindStart.set l.port.val (some s.ctu.counter) }
      ctu := { s.ctu with windowStart := none }
      cli := { s.cli with flags := withFlag (withFlag s.cli.flags .latchAccepted) .logWritten } } ∧
    t.episodePolicy = some policy ∧ t.torqueGap = s.lines.resetN

/-- R36, R38, R39 and R43: the latches that push nothing. In INHIBIT and ISOLATE the cell becomes ISOLATING and joins:
its blind wait starts, in ISOLATE the settle count starts again, and spare selection runs. In REMAP it is marked
deferred. A SPARE becomes BYPASSED, and where it was selected its cell goes to selection again in INHIBIT and ISOLATE. A
deferred, BYPASSED, FAILED or ABSENT cell is only counted. Each of these is counted, flagged and logged with the stage
and the depth as they stand; a latch on an ISOLATING cell does not even that. -/
def Obligations.LatchWithoutPush : Prop :=
  ∀ (s : State) (l : Latch), s.mode = .run →
    let e := s.entry l.port
    let t := s.takeLatch l
    let counted := saturate 255 e.latchCount
    let marked := fun v : State => { v with
      cli := { s.cli with flags := withFlag (withFlag s.cli.flags .latchAccepted) .logWritten }
      log := { next := s.log.next + 1, records := keepSixteen (s.log.records ++
        [{ sequence := s.log.next, stamp := s.ctu.counter, port := some l.port, kind := l.kind, word := l.word,
           mode := .run, stage := s.rsq.stage, restartNumber := s.rsq.restartNumber,
           nestDepth := s.rsq.nest.length, deficits := none }]) } }
    (e.role = .isolating → t = s) ∧
    (e.role ≠ .isolating →
      (s.rsq.nest ≠ [] → e.role = .active → e.deferred = false →
        s.rsq.stage = .inhibit ∨ s.rsq.stage = .isolate →
        (s.link l.port).state ≠ .lost ∨ s.governingPolicy.blindAllowed = true →
        let joined : State := { s with roster := s.roster.set l.port.val { e with role := .isolating } }
        t = marked { s with
          roster := t.roster
          bau := { s.bau with settleCount := if s.rsq.stage = .isolate then 0 else s.bau.settleCount
                              blindStart := s.bau.blindStart.set l.port.val (some s.ctu.counter) }
          ps := { s.ps with settleDone := s.ps.settleDone && decide (s.rsq.stage ≠ .isolate) } } ∧
        t.entry l.port = { e with role := .isolating, latchCount := counted } ∧
        (∀ q, q ≠ l.port → t.entry q = joined.selectSpares.entry q)) ∧
      (s.rsq.nest ≠ [] → e.role = .active → e.deferred = false → s.rsq.stage = .remap →
        t = marked { s with roster := s.roster.set l.port.val { e with deferred := true, latchCount := counted } }) ∧
      (e.role = .spare →
        let retired : State := { s with
          roster := s.roster.set l.port.val { e with role := .bypassed, insertionTarget := none } }
        t = marked { s with roster := t.roster } ∧
        t.entry l.port = { e with role := .bypassed, insertionTarget := none, latchCount := counted } ∧
        (∀ q, q ≠ l.port → t.entry q =
          if e.insertionTarget.isSome = true ∧ (s.rsq.stage = .inhibit ∨ s.rsq.stage = .isolate)
          then retired.selectSpares.entry q else s.entry q)) ∧
      ((e.role = .active ∧ e.deferred = true) ∨ e.role = .bypassed ∨ e.role = .failed ∨ e.role = .absent →
        t = marked { s with roster := s.roster.set l.port.val { e with latchCount := counted } }))

/-- R37, R42, R44 and R50: the latches that trip the part: under a policy without restart_allowed, for a LOST port
under a policy without blind_allowed, and beyond max_nest. The cell becomes ISOLATING, the latch is counted, flagged
and logged (`u`), nothing is pushed, and then the trip is requested, which TripRequestDeparts and DepartureFromRun give
the whole of: the trip is logged after the latch, and the cell is settled by compaction. Where several causes arise
RESTART_FORBIDDEN comes before LINK_LOST_NO_BLIND and that before NEST_LIMIT (DEDUCED, log 11). -/
def Obligations.LatchTripsPart : Prop :=
  ∀ (s : State) (l : Latch), s.mode = .run → (s.entry l.port).role = .active → (s.entry l.port).deferred = false →
    ∀ cause,
    (s.rsq.nest = [] ∧ s.activePolicy.restartAllowed = false ∧ cause = .restartForbidden) ∨
    (s.rsq.nest = [] ∧ s.activePolicy.restartAllowed = true ∧ (s.link l.port).state = .lost ∧
      s.activePolicy.blindAllowed = false ∧ cause = .linkLostNoBlind) ∨
    (s.rsq.nest ≠ [] ∧ s.rsq.stage ≠ .remap ∧ (s.link l.port).state = .lost ∧ s.governingPolicy.blindAllowed = false ∧
      cause = .linkLostNoBlind) ∨
    (s.rsq.nest ≠ [] ∧ (s.rsq.stage = .align ∨ s.rsq.stage = .awaitGrant ∨ s.rsq.stage = .resume) ∧
      ((s.link l.port).state ≠ .lost ∨ s.governingPolicy.blindAllowed = true) ∧
      s.governingPolicy.maxNest ≤ s.rsq.nest.length ∧ cause = .nestLimit) →
    let t := s.takeLatch l
    let e := s.entry l.port
    let u : State := { s with
      roster := s.roster.set l.port.val
        { e with role := .isolating, deferred := false, latchCount := saturate 255 e.latchCount }
      bau := { s.bau with blindStart := s.bau.blindStart.set l.port.val (some s.ctu.counter) }
      cli := { s.cli with flags := withFlag (withFlag s.cli.flags .latchAccepted) .logWritten }
      log := { next := s.log.next + 1, records := keepSixteen (s.log.records ++
        [{ sequence := s.log.next, stamp := s.ctu.counter, port := some l.port, kind := l.kind, word := l.word,
           mode := .run, stage := s.rsq.stage, restartNumber := s.rsq.restartNumber, nestDepth := s.rsq.nest.length,
           deficits := none }]) } }
    t = u.requestTrip { cause := cause, port := some l.port } ∧ t.entry l.port = { t.entry l.port with
      latchCount := saturate 255 e.latchCount } ∧
    t.mode = .tripped ∧ t.rsq.restartNumber = s.rsq.restartNumber ∧ t.rsq.gapCount = s.rsq.gapCount ∧
    t.rsq.stage = .normal ∧ t.rsq.nest = [] ∧
    (t.entry l.port).role = (if s.closureOk l.port then .bypassed else .failed) ∧ (t.entry l.port).position = none ∧
    t.log = { next := s.log.next + 2, records := keepSixteen (keepSixteen (s.log.records ++
      [{ sequence := s.log.next, stamp := s.ctu.counter, port := some l.port, kind := l.kind, word := l.word,
         mode := .run, stage := s.rsq.stage, restartNumber := s.rsq.restartNumber, nestDepth := s.rsq.nest.length,
         deficits := none }]) ++
      [{ sequence := s.log.next + 1, stamp := s.ctu.counter, port := some l.port, kind := cause, word := none,
         mode := .run, stage := s.rsq.stage, restartNumber := s.rsq.restartNumber, nestDepth := s.rsq.nest.length,
         deficits := none }]) }

/-- R11, R18 and R120: outside RUN a latch makes an ACTIVE cell FAILED, without a position, and a SPARE BYPASSED,
without a target; the phase string keeps the order of its other cells and is renumbered 0..N−1. The latch is counted,
flagged, and logged with stage NORMAL and depth 0; for any other role it changes nothing. -/
def Obligations.LatchOutsideRun : Prop :=
  ∀ (s : State) (l : Latch), s.mode ≠ .run →
    let e := s.entry l.port
    let t := s.takeLatch l
    (e.role = .active ∨ e.role = .spare →
      t.entry l.port = (if e.role = .active
        then { e with role := .failed, position := none, latchCount := saturate 255 e.latchCount }
        else { e with role := .bypassed, insertionTarget := none, latchCount := saturate 255 e.latchCount }) ∧
      (∀ q, q ≠ l.port → t.entry q = { s.entry q with position := (t.entry q).position }) ∧
      (∀ q, phaseOf q ≠ phaseOf l.port ∨ (s.entry q).inString = false → q ≠ l.port → t.entry q = s.entry q) ∧
      (∀ x, t.phaseString x = (s.phaseString x).filter (fun q => q ≠ l.port)) ∧
      (t.phaseString (phaseOf l.port)).map (fun q => (t.entry q).position) =
        (List.range (t.stringLength (phaseOf l.port))).map some ∧
      t = { s with roster := t.roster,
                   cli := { s.cli with flags := withFlag (withFlag s.cli.flags .latchAccepted) .logWritten },
                   log := { next := s.log.next + 1, records := keepSixteen (s.log.records ++
                     [{ sequence := s.log.next, stamp := s.ctu.counter, port := some l.port, kind := l.kind,
                        word := l.word, mode := s.mode, stage := .normal, restartNumber := s.rsq.restartNumber,
                        nestDepth := 0, deficits := none }]) } }) ∧
    (e.role ≠ .active → e.role ≠ .spare → t = s)

/-! ### Spares and the actuation queue -/

/-- R14 and R15: spare selection acts in RUN under an episode policy with spare_allowed, and gives insertion_targets to
eligible spares and nothing else. The ISOLATING cells of a phase that no spare names are served by ascending position,
each with the eligible spare of the phase of lowest rank, ties to the lower port: a cell is left without a spare only
where none is left, an earlier cell has the better spare, and no better spare is left over. -/
def Obligations.SparesSelected : Prop :=
  ∀ s : State,
    let t := s.selectSpares
    let allowed := s.mode = .run ∧ ∃ e, s.episodePolicy = some e ∧ e.spareAllowed = true
    let eligible := fun (u : State) (q : Port) => (u.entry q).role = .spare ∧ (u.link q).state = .up ∧
      (u.entry q).ineligible = false ∧ (u.entry q).insertionTarget = none ∧ u.settings.spareVdcMin ≤ (u.entry q).vdc
    let unserved := fun p : Port => (s.entry p).role = .isolating ∧
      ∀ q, (s.entry q).role = .spare → (s.entry q).insertionTarget ≠ some p
    let named := fun (q p : Port) => eligible s q ∧ (t.entry q).insertionTarget = some p
    let better := fun q q' : Port => (s.entry q).rank < (s.entry q').rank ∨
      ((s.entry q).rank = (s.entry q').rank ∧ q < q')
    let sooner := fun p p' : Port => ∃ k k', (s.entry p).position = some k ∧ (s.entry p').position = some k' ∧
      (k < k' ∨ (k = k' ∧ p < p'))
    (¬allowed → t = s) ∧
    t = { s with roster := t.roster } ∧
    (∀ q, t.entry q = { s.entry q with insertionTarget := (t.entry q).insertionTarget }) ∧
    (∀ q, (t.entry q).insertionTarget = (s.entry q).insertionTarget ∨
      (eligible s q ∧ ∃ p, phaseOf p = phaseOf q ∧ unserved p ∧ (t.entry q).insertionTarget = some p)) ∧
    (∀ q q' p, named q p → named q' p → q = q') ∧
    (allowed → ∀ p q, unserved p → phaseOf q = phaseOf p → eligible t q → ∃ r, named r p ∧ better r q) ∧
    (allowed → ∀ p p' q', unserved p → phaseOf p' = phaseOf p → sooner p p' → named q' p' →
      ∃ q, named q p ∧ better q q')

/-- R55, with R54, R67 and R68: reconciliation appends to the queue, behind the entries that stand in it, one entry for
each port that is UP or MISSING, has none, and whose bypass order differs from its standing order or whose retry mark is
set; the CLOSED entries come before the OPEN ones, each by ascending port. A port whose entry failed at this period start
and is tried again at the next one is passed over (DEDUCED, log 31). Outside RUN every such port has its entry after a
period start, `b` being the part once the replies due are sent (log 8). In RUN, after an ISOLATE period, the settle count
advances up to settle while every ISOLATING cell is confirmed closed or blind and every selected spare confirmed open,
and is cleared otherwise. -/
def Obligations.ReconciliationAndSettleCount : Prop :=
  (∀ s : State, ∃ closing opening : List Port,
    let added := closing.map (fun p => Actuation.mk p .closed s.ctu.counter none) ++
      opening.map (fun p => Actuation.mk p .opened s.ctu.counter none)
    s.reconcileStep = { s with bau := { s.bau with queue := s.bau.queue ++ added } } ∧
    closing.Pairwise (fun p q => p < q) ∧ opening.Pairwise (fun p q => p < q) ∧
    ∀ p,
      let e := s.entry p
      let examined := ((s.link p).state = .up ∨ (s.link p).state = .missing) ∧ (∀ a ∈ s.bau.queue, a.port ≠ p) ∧
        s.ps.failed ≠ some p
      (p ∈ closing ↔ examined ∧ (e.bypassOrder = .opened ∨ s.bau.retry[p.val] = true) ∧
        (e.role = .isolating ∨ e.role = .bypassed ∨ e.role = .failed ∨
          (e.role = .spare ∧ e.insertionTarget = none))) ∧
      (p ∈ opening ↔ examined ∧ (e.bypassOrder = .closed ∨ s.bau.retry[p.val] = true) ∧
        (e.role = .active ∨ (e.role = .spare ∧ e.insertionTarget.isSome = true)))) ∧
  (∀ (ok : Bool) (order : List PsStep) (s : State), s.Settled → let b := s.sendDue
    b.mode ≠ .run → ∃ t : State, exec (.periodStart ok order) s = .next t ∧
    ∀ p d, (t.link p).state = .up ∨ (t.link p).state = .missing → (∀ a ∈ b.bau.queue, a.port ≠ p) →
      (t.entry p).standing = some d → (b.entry p).bypassOrder ≠ d ∨ b.bau.retry[p.val] = true →
      ∃ a ∈ t.bau.queue, a.port = p ∧ a.dir = d ∧ a.enqueued = t.ctu.counter) ∧
  (∀ s : State,
    let unqueued := fun p : Port => ∀ a ∈ s.bau.queue, a.port ≠ p
    let complete := ∀ p,
      ((s.entry p).role = .isolating → (s.entry p).blind = true ∨
        ((s.entry p).bypassOrder = .closed ∧ (s.entry p).contact = .closed ∧ unqueued p)) ∧
      ((s.entry p).role = .spare → (s.entry p).insertionTarget.isSome = true →
        (s.entry p).bypassOrder = .opened ∧ (s.entry p).contact = .opened ∧ unqueued p)
    let next := if s.bau.settleCount < s.settings.settle then s.bau.settleCount + 1 else s.bau.settleCount
    (s.mode ≠ .run ∨ s.ps.stageEnded ≠ .isolate → s.settleStep = s) ∧
    (s.mode = .run → s.ps.stageEnded = .isolate → complete → s.settleStep =
      { s with bau := { s.bau with settleCount := next }
               ps := { s.ps with settleDone := decide (next = s.settings.settle) } }) ∧
    (s.mode = .run → s.ps.stageEnded = .isolate → ¬complete → s.settleStep =
      { s with bau := { s.bau with settleCount := 0 } }))

/-! ### Trips and the departure from RUN -/

/-- R166, R50, R51, R18, R69, R107, R134 and R167: a trip request taken in RUN writes one record of its cause, and the
state with that record departs to TRIPPED as at every departure from RUN, compaction included (DepartureFromRun says the
whole of it); in any other mode it changes nothing. The urgent BLOCK's neutral pair is at the P in force (DEDUCED,
log 30). -/
def Obligations.TripRequestDeparts : Prop :=
  ∀ (s : State) (r : TripRequest),
    (s.mode ≠ .run → s.requestTrip r = s) ∧
    (s.mode = .run →
      let t := s.requestTrip r
      t = ({ s with log := t.log, cli := { s.cli with flags := withFlag s.cli.flags .logWritten } } : State).departRun
        .tripped ∧
      t.mode = .tripped ∧
      t.log = { next := s.log.next + 1, records := keepSixteen (s.log.records ++
        [{ sequence := s.log.next, stamp := s.ctu.counter, port := r.port, kind := r.cause, word := r.word,
           mode := .run, stage := s.rsq.stage, restartNumber := s.rsq.restartNumber,
           nestDepth := s.rsq.nest.length, deficits := r.deficits }]) } ∧
      t.rsq = { s.rsq with stage := .normal, nest := [], grantPending := false, resumeIndex := 0, inhibitCount := 0,
                           rampGain := 1024 } ∧
      t.bau.queue = s.bau.queue.filter (fun a => a.dir == .closed || a.issued.isSome) ∧
      (∀ p : Port, t.bau.blindStart[p.val] = none) ∧
      t.bau = { s.bau with queue := t.bau.queue, settleCount := 0, blindStart := t.bau.blindStart } ∧
      (∀ q, t.link q = { s.link q with transmit :=
        if (s.link q).state = .linking ∨ (s.link q).state = .up ∨ (s.link q).state = .missing then
          (s.link q).transmit ++ [{ urgent := true, port := q, tag := s.ctu.counter.setWidth 8, command := .block,
                                    order := (s.entry q).bypassOrder, pair := neutralPair s.ctu.pInForce, trim := 0,
                                    load := none }]
        else (s.link q).transmit }) ∧
      t = { s with mode := .tripped, log := t.log, rsq := t.rsq, bau := t.bau, links := t.links, roster := t.roster,
                   ctu := { s.ctu with windowStart := none },
                   cli := { s.cli with flags := withFlag s.cli.flags .logWritten }, ps := t.ps })

/-- R51, with R18, R69, R107 and R134: the departure from RUN, to whichever mode. The sequencer goes to rest with its
gap count and restart number kept, no record is written, the commit marks stay, and TORQUE_GAP is false. Waiting OPEN
entries leave the queue, the settle count and the blind waits are cleared, the alignment window is closed, and every
linked port is sent an urgent BLOCK. Compaction makes a deferred ACTIVE cell FAILED, an ISOLATING cell BYPASSED where
its closure is confirmed or blind and FAILED otherwise, and takes each spare's target; every other cell keeps its role,
and the cells left in each string keep their order and hold the positions 0..N−1. The closure is judged on the queue as
it stands before the waiting OPEN entries leave it (DESIGN CHOICE, log 41). The urgent BLOCK's neutral pair is at the P
in force (DEDUCED from R95 against R79, log 30). -/
def Obligations.DepartureFromRun : Prop :=
  ∀ (s : State) (m : Mode), m ≠ .run →
    let t := s.departRun m
    t.mode = m ∧
    t.rsq = { s.rsq with stage := .normal, nest := [], grantPending := false, resumeIndex := 0, inhibitCount := 0,
                         rampGain := 1024 } ∧
    t.log = s.log ∧ t.mga = s.mga ∧ t.torqueGap = false ∧
    t.bau = { s.bau with queue := s.bau.queue.filter (fun a => a.dir == .closed || a.issued.isSome)
                         settleCount := 0, blindStart := t.bau.blindStart } ∧
    (∀ p : Port, t.bau.blindStart[p.val] = none) ∧
    t.ctu = { s.ctu with windowStart := none } ∧
    (∀ p, t.link p = { s.link p with transmit := if (s.link p).state.sends
      then (s.link p).transmit ++ [s.urgentFrame p .block] else (s.link p).transmit }) ∧
    (∀ p, (t.entry p).role =
      match (s.entry p).role with
      | .active => if (s.entry p).deferred then .failed else .active
      | .isolating => if s.closureOk p then .bypassed else .failed
      | other => other) ∧
    (∀ p, (s.entry p).role = .spare → (t.entry p).insertionTarget = none) ∧
    (∀ p, (s.entry p).role = .active → (t.entry p).deferred = false) ∧
    (∀ p, t.entry p = { s.entry p with
      role := (t.entry p).role, position := (t.entry p).position, insertionTarget := (t.entry p).insertionTarget
      deferred := (t.entry p).deferred }) ∧
    (∀ x, t.phaseString x = (s.phaseString x).filter (fun p => (t.entry p).role = .active)) ∧
    (∀ x, (t.phaseString x).map (fun p => (t.entry p).position) = (List.range (t.stringLength x)).map some) ∧
    t = { s with mode := m, rsq := t.rsq, bau := t.bau, ctu := t.ctu, links := t.links, roster := t.roster,
                 ps := t.ps }

/-! ### Services -/

/-- R152 and R148: where a check fails, the request is answered with the result and the detail of the first that fails,
with no payload, and nothing else changes; a request whose code is none of the twelve is answered BAD_VALUE with detail
255. The reply goes to the tail of the upstream list with the request's tag and code, the buffer becomes ANSWERED, and
nothing else changes. With no request waiting, with a warm reset pending, or with the oldest waiting request of another
code, a service command changes nothing, and UNKNOWN_REQUEST changes nothing where that request's code is one of the
twelve (log 3). -/
def Obligations.RefusalChangesNothing : Prop :=
  (∀ x ∈ services, ∀ (s : State) (b : Fin 2) (f : MgtFrame) (r : Reject), s.Serves x.2.1 b f →
    x.2.2 s f = some r → exec x.1 s = .next (s.answer b f { result := r.1, detail := r.2, payload := [] })) ∧
  (∀ (s : State) (b : Fin 2) (f : MgtFrame), s.Settled → s.mga.warmPending = false →
    s.oldestWaiting? = some (b, f) → f.code.toNat = 0 ∨ 12 < f.code.toNat →
    exec .unknownRequest s = .next (s.answer b f { result := .badValue, detail := 255, payload := [] })) ∧
  (∀ (s : State) (b : Fin 2) (f : MgtFrame) (v : Verdict), s.oldestWaiting? = some (b, f) →
    let t := s.answer b f v
    t = { s with cli := { s.cli with upstream := s.cli.upstream ++
            [.reply b { tag := f.tag, code := f.code, result := v.result, detail := BitVec.ofNat 8 v.detail,
                        payload := v.payload }] },
                 mga := { s.mga with buf0 := t.mga.buf0, buf1 := t.mga.buf1 } } ∧
    (∃ n, t.buffer b = .answered f n ∧ s.buffer b = .waiting f n) ∧ (∀ c, c ≠ b → t.buffer c = s.buffer c)) ∧
  (∀ x ∈ services, ∀ s : State, s.Settled →
    s.mga.warmPending = true ∨ s.oldestWaiting? = none ∨
      (∃ b f, s.oldestWaiting? = some (b, f) ∧ f.code.toNat ≠ x.2.1) → exec x.1 s = .next s) ∧
  (∀ s : State, s.Settled →
    s.mga.warmPending = true ∨ s.oldestWaiting? = none ∨
      (∃ b f, s.oldestWaiting? = some (b, f) ∧ 1 ≤ f.code.toNat ∧ f.code.toNat ≤ 12) →
    exec .unknownRequest s = .next s)

/-- R152, R153, R162, R174 and R177: the checks of READ_TABLE and READ_LOG, in their order. With all of them passed the
request is answered DONE with what it reads, and nothing changes but the reply and the buffer: READ_TABLE with its four
request bytes (the bank byte of an unbanked table included: DEDUCED, log 28), the table's header and its entries start,
start + 1 and so on up to start + count − 1, in that order, at most 120 bytes; READ_LOG with its records from the one
named on. A payload too short for a field passes the step that checks it (DESIGN CHOICE, log 9). The later clauses give
the bytes of a ROSTER entry and of a log record, and then the headers and the entries of the other ten tables, absent
values being 0xFF, 0xFFFF, or 0x8000 for a phase error. Fields of three bytes go most significant first, and the middle
and oldest supply samples stand in bits 1 and 2 (DEDUCED, log 17). An empty NEST or ACTUATION entry reads
absent values and marks of 0 (DEDUCED, log 44). The direction and enqueue period of an empty ACTUATION entry, and the
value of a frame plan and the window start where there is none, are free values (DESIGN CHOICE, log 13). The neutral pair is at the P in force (DEDUCED, log 30). A mark of a readout is 1 for yes and 0 for no, a load
direction 1 for down (DEDUCED, log 39). -/
def Obligations.ReadsAnswerDone : Prop :=
  (∀ (s : State) (b : Fin 2) (f : MgtFrame), s.Serves 1 b f →
    let code := byteOr f.payload 0
    let bank := byteOr f.payload 1
    let start := byteOr f.payload 2
    let count := byteOr f.payload 3
    let entries := [24, 16, 64, 7, 3, 24, 1, 24, 24, 1, 1].getD code 0
    let header := if code = 1 ∧ bank = 1 then 2 else [0, 0, 0, 0, 0, 6, 0, 18, 0, 0, 0].getD code 0
    let size := if code = 1 ∧ bank = 1 then 7 else [14, 5, 21, 5, 16, 10, 56, 14, 16, 7, 23].getD code 0
    let checks : List (Bool × Reject) :=
      [(decide (f.payload = [] ∨ code ≤ 10), .badTable, 0),
       (decide (f.payload.length < 4 ∨ (1 ≤ count ∧ count ≤ 8 ∧ start + count ≤ entries)), .badIndex, 0),
       (decide (f.payload.length = 4 ∧ 4 + header + count * size ≤ 120), .badLength, 0),
       (decide (code = 0 ∨ 3 < code ∨ bank ≤ 1), .badValue, 0)]
    s.AnswersFirstFailure .readTable b f checks ∧
    ((∀ x ∈ checks, x.1 = true) → ∃ table, tableOf f = some table ∧
      [Table.roster, .screen, .rebalance, .policy, .nest, .actuation, .transform, .carrier, .link, .control,
        .config][code]? = some table ∧
      let payload := f.payload ++ s.tableHeader table bank ++
        (List.range count).flatMap (fun k => s.tableEntry table bank (start + k))
      payload = f.payload ++ s.tableHeader table bank ++ s.tableEntries table bank start count ∧
      exec .readTable s = .next (s.answer b f { result := .done, detail := 0, payload := payload }) ∧
      (s.tableHeader table bank).length = header ∧ payload.length = 4 + header + count * size)) ∧
  (∀ (s : State) (b : Fin 2) (f : MgtFrame), s.Serves 12 b f →
    let count := byteOr f.payload 2
    let checks : List (Bool × Reject) :=
      [(decide (f.payload.length < 3 ∨ (1 ≤ count ∧ count ≤ 4)), .badIndex, 0),
       (decide (f.payload.length < 2 ∨ ∃ r ∈ s.log.records, r.sequence = halfAt f.payload 0), .badIndex, 0),
       (decide (f.payload.length = 3), .badLength, 0)]
    s.AnswersFirstFailure .readLog b f checks ∧
    ((∀ x ∈ checks, x.1 = true) → ∃ pre r post, s.log.records = pre ++ r :: post ∧
      r.sequence = halfAt f.payload 0 ∧ (∀ q ∈ pre, q.sequence ≠ halfAt f.payload 0) ∧
      let given := (r :: post).take count
      exec .readLog s = .next (s.answer b f
        { result := .done, detail := 0, payload := BitVec.ofNat 8 given.length :: given.flatMap logBytes }))) ∧
  (∀ (s : State) (bank : Nat) (p : Port),
    let e := s.entry p
    s.tableEntry .roster bank p.val =
      [BitVec.ofNat 8 ((if e.installed then 128 else 0) +
         [Role.absent, .active, .spare, .isolating, .bypassed, .failed].idxOf e.role),
       BitVec.ofNat 8 (e.position.getD 255), BitVec.ofNat 8 e.rank, BitVec.ofNat 8 e.linkDelay,
       BitVec.ofNat 8 ((if e.bypassOrder = .closed then 16 else 0) +
         [Contact.opened, .closed, .moving, .unknown].idxOf e.contact),
       e.lastStatus.extractLsb' 8 8, e.lastStatus.extractLsb' 0 8, BitVec.ofNat 8 (e.vdc / 256), BitVec.ofNat 8 e.vdc,
       BitVec.ofNat 8 (e.noteCount / 256), BitVec.ofNat 8 e.noteCount,
       BitVec.ofNat 8 (e.clipBucket % 16 + (if e.ineligible then 16 else 0) + (if e.deferred then 32 else 0) +
         (if e.blind then 64 else 0)),
       BitVec.ofNat 8 e.latchCount, BitVec.ofNat 8 ((e.insertionTarget.map Fin.val).getD 255)]) ∧
  (∀ r : LogRecord,
    let d := r.deficits.getD ⟨0, 0, 0⟩
    logBytes r =
      [r.sequence.extractLsb' 8 8, r.sequence.extractLsb' 0 8, r.stamp.extractLsb' 24 8, r.stamp.extractLsb' 16 8,
       r.stamp.extractLsb' 8 8, r.stamp.extractLsb' 0 8, BitVec.ofNat 8 ((r.port.map Fin.val).getD 255),
       BitVec.ofNat 8 (1 + [LogKind.latchStatus, .linkLost, .alignFail, .clipEscalated, .tripStatus, .bypassFail,
         .spareOpenFail, .restartForbidden, .nestLimit, .gapExpired, .noRebalance, .linkLostNoBlind, .controlLost,
         .safetyStop, .recovered].idxOf r.kind),
       BitVec.ofNat 8 ((if r.word.isSome then 3 else 0) + (if r.deficits.isSome then 4 else 0)),
       ((r.word.map Prod.fst).getD 0).extractLsb' 8 8, ((r.word.map Prod.fst).getD 0).extractLsb' 0 8,
       BitVec.ofNat 8 ((r.word.map (fun w => w.2.val)).getD 0),
       BitVec.ofNat 8 ([Mode.standby, .run, .tripped, .safeStop].idxOf r.mode),
       BitVec.ofNat 8 ([Stage.normal, .inhibit, .isolate, .remap, .align, .awaitGrant, .resume].idxOf r.stage),
       r.restartNumber.extractLsb' 8 8, r.restartNumber.extractLsb' 0 8, BitVec.ofNat 8 r.nestDepth,
       BitVec.ofNat 8 d.a, BitVec.ofNat 8 d.b, BitVec.ofNat 8 d.c]) ∧
  (∀ (s : State) (bank : Nat),
    let byte := fun n : Nat => BitVec.ofNat 8 n
    let half := fun h : Half => [h.extractLsb' 8 8, h.extractLsb' 0 8]
    let word := fun n : Nat => half (BitVec.ofNat 16 n)
    let signed := fun x : Int => half (BitVec.ofInt 16 x)
    let four := fun x : Period => [x.extractLsb' 24 8, x.extractLsb' 16 8, x.extractLsb' 8 8, x.extractLsb' 0 8]
    let three := fun x : BitVec 24 => [x.extractLsb' 16 8, x.extractLsb' 8 8, x.extractLsb' 0 8]
    let mark := fun (m : Bool) (n : Nat) => if m then n else 0
    let policy := fun e : PolicyEntry =>
      [byte (mark e.restartAllowed 1 + mark e.spareAllowed 2 + mark e.blindAllowed 4)] ++ word e.gapBudget ++
        [byte e.rampPeriods, byte e.maxNest]
    let stage := [Stage.normal, .inhibit, .isolate, .remap, .align, .awaitGrant, .resume].idxOf
    let motion := [Motion.braked, .proving, .accelerating, .running, .decelerating, .creeping, .levelling].idxOf
    let h := s.bau.supply
    (∀ t ∈ [Table.roster, .rebalance, .policy, .nest, .transform, .link, .control, .config],
      s.tableHeader t bank = []) ∧
    s.tableHeader .screen bank = (if bank = 1 then word s.ssc.leakCount else []) ∧
    (∀ i : Fin 16,
      let e := if bank = 1 then s.screenActive[i.val] else s.screenStaged[i.val]
      s.tableEntry .screen bank i.val =
        [byte (mark e.valid 128 + [Action.pass, .note, .clip, .latch, .trip].idxOf e.action)] ++ half e.mask ++
          half e.pattern ++ if bank = 1 then word s.ssc.hits[i.val] else []) ∧
    (∀ i : Fin 64,
      let e := if bank = 1 then s.rebalActive[i.val] else s.rebalStaged[i.val]
      let c := e.coef
      s.tableEntry .rebalance bank i.val =
        [byte (mark e.valid 1)] ++ [c.a.a, c.a.b, c.a.c, c.b.a, c.b.b, c.b.c, c.c.a, c.c.b, c.c.c].flatMap half ++
          word e.ceiling) ∧
    (∀ i : Fin 7, s.tableEntry .policy bank i.val =
      policy (if bank = 1 then s.policyActive[i.val] else s.policyStaged[i.val])) ∧
    (∀ i, (∀ c, s.rsq.nest[i]? = some c → s.tableEntry .nest bank i =
        [1#8] ++ half c.restartNumber ++ [byte (stage c.interrupted), byte c.deficits.a, byte c.deficits.b,
          byte c.deficits.c, byte (motion c.motion)] ++ word c.gapCount ++ [byte (mark c.policy.isSome 1)] ++
          (c.policy.map policy).getD (List.replicate 5 0xFF)) ∧
      (s.rsq.nest[i]? = none → s.tableEntry .nest bank i =
        [0#8] ++ word 0xFFFF ++ List.replicate 5 0xFF ++ word 0xFFFF ++ [0] ++ List.replicate 5 0xFF)) ∧
    (∃ retry : BitVec 24, (∀ p : Port, retry.getLsbD p.val = s.bau.retry[p.val]) ∧
      s.tableHeader .actuation bank =
        [byte s.bau.queue.length,
         byte (mark h.newest 1 + mark h.middle 2 + mark h.oldest 4 +
           mark (h.oldest && h.middle || h.oldest && h.newest || h.middle && h.newest) 128),
         byte s.bau.settleCount] ++ three retry) ∧
    (∀ i, (∀ a, s.bau.queue[i]? = some a → s.tableEntry .actuation bank i =
        [byte a.port.val, byte (mark (a.dir == .closed) 1 + mark a.issued.isSome 128)] ++ four a.enqueued ++
          four (a.issued.getD 0)) ∧
      (s.bau.queue[i]? = none → ∃ (closed : Bool) (enqueued : Period),
        s.tableEntry .actuation bank i = [0xFF, byte (mark closed 1)] ++ four enqueued ++ [0, 0, 0, 0])) ∧
    (let r := s.rtu
     s.tableEntry .transform bank 0 =
      half r.held.a ++ half r.held.b ++ half r.held.c ++ [byte (mark r.fresh 1),
        byte ((r.entryIndex.map Fin.val).getD 255)] ++ word r.gain ++
        [r.y.a, r.y.b, r.y.c, r.yRamped.a, r.yRamped.b, r.yRamped.c, r.m.a, r.m.b, r.m.c].flatMap signed ++
        [r.pairs.a.cL, r.pairs.a.cR, r.pairs.b.cL, r.pairs.b.cR, r.pairs.c.cL, r.pairs.c.cR,
         (neutralPair s.ctu.pInForce).cL, (neutralPair s.ctu.pInForce).cR, r.xformClamps.a, r.xformClamps.b,
         r.xformClamps.c, r.cellClamps.a, r.cellClamps.b, r.cellClamps.c].flatMap word) ∧
    (∃ start : Period, (∀ x, s.ctu.windowStart = some x → start = x) ∧
      s.tableHeader .carrier bank =
        four s.ctu.counter ++ [s.ctu.pInForce, s.ctu.bases.a, s.ctu.bases.b, s.ctu.bases.c].flatMap word ++
          [byte (mark s.ctu.windowStart.isSome 1)] ++ four start ++
          [byte ((List.finRange 24).countP (fun p => (s.entry p).inString && (s.cport p).aligned))]) ∧
    (∀ p : Port,
      let c := s.cport p
      ∃ plan : List Byte, (∀ x, c.sent = .trim x → plan = [1] ++ signed x ++ [0xFF]) ∧
        (∀ n down, c.sent = .load n down → plan = [2] ++ word n ++ [byte (mark down 1)]) ∧
        (c.sent = .nothing → plan.length = 4 ∧ plan.head? = some 0 ∧ plan.getLast? = some 0xFF) ∧
        s.tableEntry .carrier bank p.val =
          word (c.target.getD 0xFFFF) ++ word ((c.capture.map (fun q => q.raw)).getD 0xFFFF) ++
            word ((c.capture.map (fun q => q.corrected)).getD 0xFFFF) ++
            (c.lastError.map signed).getD [0x80, 0] ++ plan ++ [byte c.passCount, byte (mark c.aligned 1)]) ∧
    (∀ p : Port,
      let l := s.link p
      s.tableEntry .link bank p.val =
        [byte ([LinkState.idle, .linking, .up, .missing, .lost].idxOf l.state), byte l.missCount,
         byte l.linkingCount, l.tagSent.getD 0xFF,
         byte (mark l.tagSent.isSome 1 + mark l.accepted 2 + mark l.forceOnce 4 + mark l.forceContinuous 8)] ++
          [l.malformed, l.wrongPort, l.stale, l.repeated].flatMap word ++ half l.framesAccepted ++
          [byte ([some Command.switch, some .zero, some .block, none].idxOf l.lastCommand)]) ∧
    s.tableEntry .control bank 0 =
      [byte (mark s.cli.lastSeq.isSome 1 + mark s.cli.current.isSome 2), s.cli.lastSeq.getD 0xFF,
       byte (motion s.cli.motion), byte s.cli.holdCount] ++ three s.cli.flags ∧
    (let c := s.settings
     s.tableEntry .config bank 0 =
      [byte c.nNom] ++ [c.p, c.bases.a, c.bases.b, c.bases.c].flatMap word ++
        [byte c.j, byte c.aTol, byte c.alignLimit, byte c.missLimit, byte c.refHoldLimit, byte c.inhibitHold,
         byte c.confirmLimit, byte c.settle, byte c.blindWait, byte c.clipLimit] ++ word c.leakInterval ++
        word c.spareVdcMin))

/-- R19, R125, R152, R154 and R177: the checks of a roster write, in their order, and of a write that names no table or
none that can be written; a payload too short for start and count passes their check (DESIGN CHOICE, log 9). A write that
passes replaces the written fields of each entry it covers, clears its counts and marks, leaves its recorded state and
bypass order, and moves its link on an installation or a removal; no other entry and no other port changes. On a removal
the frame being sent completes, the frames before it having been sent in full (a free value, log 7). -/
def Obligations.RosterWriteStored : Prop :=
  ∀ (s : State) (b : Fin 2) (f : MgtFrame), s.Serves 2 b f →
    let start := byteOr f.payload 1
    let count := byteOr f.payload 2
    let at_ := fun (p : Port) (i : Nat) => byteOr f.payload (3 + 4 * (p.val - start) + i)
    let covers := fun p : Port => start ≤ p.val ∧ p.val < start + count
    let activeAfter := fun x => (phasePorts x).countP (fun p =>
      if covers p then decide (at_ p 0 % 8 = 1) else decide ((s.entry p).role = .active))
    let valid := fun p : Port => (at_ p 0 % 8 = 0 ∨ at_ p 0 % 8 = 1 ∨ at_ p 0 % 8 = 2 ∨ at_ p 0 % 8 = 4) ∧
      (128 ≤ at_ p 0 ↔ at_ p 0 % 8 ≠ 0) ∧ (at_ p 0 % 8 = 1 → at_ p 1 ≤ 7) ∧ at_ p 2 ≤ 7 ∧ at_ p 3 ≤ 63 ∧
      (at_ p 0 % 8 = 1 → activeAfter (phaseOf p) ≤ s.settings.nNom)
    let checks : List (Bool × Reject) :=
      [(decide (f.payload = [] ∨ byteOr f.payload 0 = 0), .badTable, 0),
       (decide (f.payload = [] ∨ s.mode = .standby), .refusedMode, 0),
       (decide (f.payload.length < 3 ∨ (1 ≤ count ∧ count ≤ 8 ∧ start + count ≤ 24)), .badIndex, 0),
       (decide (f.payload.length = 3 + count * 4), .badLength, 0)] ++
      (allPorts.filter (fun p => covers p)).map (fun p => (decide (valid p), .badValue, p.val - start))
    (f.payload = [] ∨ byteOr f.payload 0 = 0 ∨ 3 < byteOr f.payload 0 →
      s.AnswersFirstFailure .writeTable b f checks) ∧
    ((∀ x ∈ checks, x.1 = true) → s.mode = .standby ∧ ∃ t : State,
      exec .writeTable s = .next (t.answer b f { result := .done, detail := 0, payload := [] }) ∧
      t = { s with roster := t.roster, links := t.links } ∧
      (∀ p : Port, covers p →
        t.entry p = { s.entry p with
          installed := decide (128 ≤ at_ p 0)
          role := [Role.absent, .active, .spare, .isolating, .bypassed].getD (at_ p 0 % 8) .failed
          position := if at_ p 0 % 8 = 1 then some (at_ p 1) else none
          rank := at_ p 2, linkDelay := at_ p 3
          noteCount := 0, clipBucket := 0, latchCount := 0, ineligible := false, insertionTarget := none
          deferred := false, blind := false } ∧
        ((s.entry p).installed = false → 128 ≤ at_ p 0 → t.link p = { s.link p with
          state := .linking, missCount := 0, linkingCount := 0, accepted := false, tagSent := none }) ∧
        ((s.entry p).installed = true → at_ p 0 < 128 → t.link p = { s.link p with
          state := .idle, missCount := 0, linkingCount := 0, tagSent := none, forceOnce := false
          forceContinuous := false, moments := (s.link p).moments + 1
          transmit := ((s.link p).transmit.drop (Config.framesSent p (s.link p).moments)).take 1 }) ∧
        ((s.entry p).installed = decide (128 ≤ at_ p 0) → t.link p = s.link p)) ∧
      (∀ p : Port, ¬covers p → t.entry p = s.entry p ∧ t.link p = s.link p) ∧
      (∀ p : Port, covers p → at_ p 0 % 8 = 1 → t.activeCount (phaseOf p) ≤ s.settings.nNom))

/-- R152, R154, R112, R75, R32 and R177: the checks of a write of SCREEN, REBALANCE or POLICY, in their order, the first
invalid entry being answered with its offset in the write. A write that passes is stored in the staged bank in any mode,
entry by entry, and changes nothing else. A payload too short for start and count passes their check (DESIGN CHOICE,
log 9). -/
def Obligations.StagedWriteStored : Prop :=
  ∀ (s : State) (b : Fin 2) (f : MgtFrame), s.Serves 2 b f →
    let code := byteOr f.payload 0
    let start := byteOr f.payload 1
    let count := byteOr f.payload 2
    let size := if code = 2 then 21 else 5
    let at_ := fun k i : Nat => byteOr f.payload (3 + size * k + i)
    let word := fun k i : Nat => halfAt f.payload (3 + size * k + i)
    let valid := fun k : Nat =>
      if code = 1 then at_ k 0 % 8 ≤ 4
      else if code = 2 then at_ k 0 ≤ 1 ∧ (word k 19).toNat ≤ 32767
      else 1 ≤ (word k 1).toNat ∧ (word k 1).toNat ≤ 4095 ∧ 1 ≤ at_ k 3 ∧ 1 ≤ at_ k 4 ∧ at_ k 4 ≤ 3
    let checks : List (Bool × Reject) :=
      [(decide (f.payload.length < 3 ∨ (1 ≤ count ∧ count ≤ 8 ∧ start + count ≤ [0, 16, 64, 7].getD code 0)),
          .badIndex, 0),
       (decide (f.payload.length = 3 + count * size ∧ 3 + count * size ≤ 120), .badLength, 0)] ++
      (List.range count).map (fun k => (decide (valid k), .badValue, k))
    1 ≤ code → code ≤ 3 →
    s.AnswersFirstFailure .writeTable b f checks ∧
    ((∀ x ∈ checks, x.1 = true) → ∃ t : State,
      exec .writeTable s = .next (t.answer b f { result := .done, detail := 0, payload := [] }) ∧
      t = { s with screenStaged := t.screenStaged, rebalStaged := t.rebalStaged, policyStaged := t.policyStaged } ∧
      (∀ i : Fin 16,
        let k := i.val - start
        (code = 1 → start ≤ i.val → i.val < start + count →
          (t.screenStaged[i.val]).valid = decide (128 ≤ at_ k 0) ∧
          [Action.pass, .note, .clip, .latch, .trip][at_ k 0 % 8]? = some (t.screenStaged[i.val]).action ∧
          (t.screenStaged[i.val]).mask = word k 1 ∧ (t.screenStaged[i.val]).pattern = word k 3) ∧
        (code ≠ 1 ∨ i.val < start ∨ start + count ≤ i.val → t.screenStaged[i.val] = s.screenStaged[i.val])) ∧
      (∀ i : Fin 64,
        let k := i.val - start
        (code = 2 → start ≤ i.val → i.val < start + count →
          t.rebalStaged[i.val] =
            { valid := decide (at_ k 0 = 1)
              coef := ⟨⟨word k 1, word k 3, word k 5⟩, ⟨word k 7, word k 9, word k 11⟩,
                ⟨word k 13, word k 15, word k 17⟩⟩
              ceiling := (word k 19).toNat }) ∧
        (code ≠ 2 ∨ i.val < start ∨ start + count ≤ i.val → t.rebalStaged[i.val] = s.rebalStaged[i.val])) ∧
      (∀ i : Fin 7,
        let k := i.val - start
        (code = 3 → start ≤ i.val → i.val < start + count →
          t.policyStaged[i.val] =
            { restartAllowed := decide (at_ k 0 % 2 = 1), spareAllowed := decide (at_ k 0 / 2 % 2 = 1)
              blindAllowed := decide (at_ k 0 / 4 % 2 = 1), gapBudget := (word k 1).toNat, rampPeriods := at_ k 3
              maxNest := at_ k 4 }) ∧
        (code ≠ 3 ∨ i.val < start ∨ start + count ≤ i.val → t.policyStaged[i.val] = s.policyStaged[i.val])))

/-- R152, R155, R111, R74 and R8: the checks of COMMIT, in their order; the last, for a PERIOD commit that names REBALANCE
in RUN, fails with the index of the deficit tuple, or 255 where the tuple selects none. A COMMIT that passes copies the
groups it names at once in STANDBY, clears both their marks and raises COMMIT_APPLIED, and in every other mode sets their
mark of its timing and nothing else. A payload without a group passes the first check (DESIGN CHOICE, log 9). -/
def Obligations.CommitCopiesOrMarks : Prop :=
  ∀ (s : State) (b : Fin 2) (f : MgtFrame), s.Serves 3 b f →
    let code := byteOr f.payload 0
    let period := byteOr f.payload 1 = 0
    let d := s.deficits
    let selects := d.a ≤ 3 ∧ d.b ≤ 3 ∧ d.c ≤ 3
    let index := d.a * 16 + d.b * 4 + d.c
    let usable := selects ∧ (s.rebalStaged[index]?.map RebalEntry.valid).getD false = true ∧
      d.a < s.settings.nNom ∧ d.b < s.settings.nNom ∧ d.c < s.settings.nNom
    let checks : List (Bool × Reject) :=
      [(decide (f.payload = [] ∨ (1 ≤ code ∧ code ≤ 4)), .badTable, 0), (decide (f.payload.length = 2), .badLength, 0),
       (decide (byteOr f.payload 1 ≤ 1), .badValue, 0),
       (decide (¬(s.mode = .run ∧ period ∧ (code = 2 ∨ code = 4)) ∨ usable), .refusedState,
          if selects then index else 255)]
    let names := fun g : Group => code = 4 ∨ (code = 1 ∧ g = .screen) ∨ (code = 2 ∧ g = .rebalance) ∨
      (code = 3 ∧ g = .policy)
    s.AnswersFirstFailure .commit b f checks ∧
    ((∀ x ∈ checks, x.1 = true) → ∃ t : State,
    exec .commit s = .next (t.answer b f { result := .done, detail := 0, payload := [] }) ∧
    (s.mode = .standby →
      t = { s with
        screenActive := if names .screen then s.screenStaged else s.screenActive
        ssc := { s.ssc with hits := t.ssc.hits }
        rebalActive := if names .rebalance then s.rebalStaged else s.rebalActive
        policyActive := if names .policy then s.policyStaged else s.policyActive
        cli := { s.cli with flags := withFlag s.cli.flags .commitApplied }
        mga := { s.mga with periodMarks := t.mga.periodMarks, recoveryMarks := t.mga.recoveryMarks } } ∧
      (∀ i : Fin 16, t.ssc.hits[i.val] = if names .screen then 0 else s.ssc.hits[i.val]) ∧
      (∀ g, t.mga.periodMarks.get g = (s.mga.periodMarks.get g && !decide (names g)) ∧
        t.mga.recoveryMarks.get g = (s.mga.recoveryMarks.get g && !decide (names g)))) ∧
    (s.mode ≠ .standby →
      t = { s with mga := { s.mga with periodMarks := t.mga.periodMarks, recoveryMarks := t.mga.recoveryMarks } } ∧
      (∀ g, t.mga.periodMarks.get g = (s.mga.periodMarks.get g || decide (period ∧ names g)) ∧
        t.mga.recoveryMarks.get g = (s.mga.recoveryMarks.get g || decide (¬period ∧ names g)))))

/-- R152, R157 and R177: the checks of SET_CONFIG, in their order: the mode, the length, each of the seventeen fields
against its range, answered with the field's number, and the ACTIVE cells of each phase against the new N_nom, answered
with the number of the phase. A SET_CONFIG that passes replaces the whole record by the one its payload lays out, and
nothing else. -/
def Obligations.ConfigReplacedWhole : Prop :=
  ∀ (s : State) (b : Fin 2) (f : MgtFrame), s.Serves 4 b f →
    let at_ := byteOr f.payload
    let word := fun i => 256 * at_ i + at_ (i + 1)
    let base := (0, 2 * word 1 - 1)
    let ranges : List ((Nat × Nat) × Nat) :=
      [((2, 8), at_ 0), ((100, 4000), word 1), (base, word 3), (base, word 5), (base, word 7), ((1, 16), at_ 9),
       ((0, 16), at_ 10), ((4, 255), at_ 11), ((1, 15), at_ 12), ((1, 15), at_ 13), ((1, 63), at_ 14),
       ((1, 255), at_ 15), ((0, 63), at_ 16), ((1, 255), at_ 17), ((1, 15), at_ 18), ((1, 1023), word 19),
       ((0, 4095), word 21)]
    let checks : List (Bool × Reject) :=
      [(decide (s.mode = .standby), .refusedMode, 0), (decide (f.payload.length = 23), .badLength, 0)] ++
      ranges.zipIdx.map (fun x => (decide (x.1.1.1 ≤ x.1.2 ∧ x.1.2 ≤ x.1.1.2), .badValue, x.2 + 1)) ++
      [(decide (s.activeCount .a ≤ at_ 0), .refusedState, 1), (decide (s.activeCount .b ≤ at_ 0), .refusedState, 2),
       (decide (s.activeCount .c ≤ at_ 0), .refusedState, 3)]
    s.AnswersFirstFailure .setConfig b f checks ∧
    ((∀ x ∈ checks, x.1 = true) →
      exec .setConfig s = .next ({ s with settings :=
        { nNom := at_ 0, p := word 1, bases := ⟨word 3, word 5, word 7⟩, j := at_ 9, aTol := at_ 10
          alignLimit := at_ 11, missLimit := at_ 12, refHoldLimit := at_ 13, inhibitHold := at_ 14
          confirmLimit := at_ 15, settle := at_ 16, blindWait := at_ 17, clipLimit := at_ 18
          leakInterval := word 19, spareVdcMin := word 21 } }.answer b f
      { result := .done, detail := 0, payload := [] }))

/-- R31, R152, R158, R20, R7 and R8: the checks of START: its empty payload, and the nine of R158 and R20, answered with
their number: mode, safety stop line, hold count, no FAILED cell, the counts, positions and targets of the roster, the
links, the bypasses with nothing in flight, the deficits, and the entry of the deficit tuple. A START that passes leaves
the roster as it is and enters RUN at stage ALIGN with an empty nest list, the restart number counted and the gap count
0. -/
def Obligations.StartEntersRun : Prop :=
  ∀ (s : State) (b : Fin 2) (f : MgtFrame), s.Serves 5 b f →
    let d := s.deficits
    let checks : List (Bool × Reject) :=
      [(decide (f.payload = []), .badLength, 0), (decide (s.mode = .standby), .refusedState, 1),
       (s.lines.safetyStopN, .refusedState, 2), (decide (s.cli.holdCount < s.settings.refHoldLimit), .refusedState, 3),
       (decide (∀ p, (s.entry p).role ≠ .failed), .refusedState, 4),
       (decide ((∀ x ∈ Phase.list, 1 ≤ s.activeCount x ∧ s.activeCount x ≤ s.settings.nNom ∧
            (s.phaseString x).map (fun p => (s.entry p).position) = (List.range (s.stringLength x)).map some) ∧
          ∀ p, (s.entry p).role ≠ .isolating ∧ ((s.entry p).role = .spare → (s.entry p).insertionTarget = none)),
        .refusedState, 5),
       (decide (∀ p, (s.entry p).role = .active → (s.link p).state = .up), .refusedState, 6),
       (decide ((∀ p,
            ((s.entry p).role = .active → (s.entry p).bypassOrder = .opened ∧ (s.entry p).contact = .opened) ∧
            ((s.entry p).role = .spare ∨ (s.entry p).role = .bypassed →
              (s.entry p).bypassOrder = .closed ∧ (s.entry p).contact = .closed)) ∧
          ∀ a ∈ s.bau.queue.head?, a.issued = none), .refusedState, 7),
       (decide (d.a ≤ 3 ∧ d.b ≤ 3 ∧ d.c ≤ 3), .refusedState, 8),
       (decide ((s.rebalActive[d.a * 16 + d.b * 4 + d.c]?.map RebalEntry.valid).getD false = true ∧
          d.a < s.settings.nNom ∧ d.b < s.settings.nNom ∧ d.c < s.settings.nNom), .refusedState, 9)]
    s.AnswersFirstFailure .start b f checks ∧
    ((∀ x ∈ checks, x.1 = true) →
      exec .start s = .next ({ s with
        mode := .run
        rsq := { s.rsq with stage := .align, nest := [], gapCount := 0, restartNumber := s.rsq.restartNumber + 1 }
        ctu := { s.ctu with windowStart := none } }.answer b f { result := .done, detail := 0, payload := [] }))

/-- R159, R160, R165 and R167, with R152: the checks of STOP, CLEAR and WARM_RESET, in their order. STOP is served in RUN
and departs to STANDBY; CLEAR is served in TRIPPED, and in SAFE_STOP with the line high, and changes nothing but the mode;
WARM_RESET is served outside RUN and sets the pending mark, and its effect waits. -/
def Obligations.ModeRequests : Prop :=
  ∀ (s : State) (b : Fin 2) (f : MgtFrame),
    (s.Serves 6 b f → s.AnswersFirstFailure .stop b f
      [(decide (s.mode = .run), .refusedMode, 0), (decide (f.payload = []), .badLength, 0)]) ∧
    (s.Serves 7 b f → s.AnswersFirstFailure .clear b f
      [(decide (s.mode = .tripped ∨ s.mode = .safeStop), .refusedMode, 0), (decide (f.payload = []), .badLength, 0),
       (decide (s.mode = .tripped ∨ s.lines.safetyStopN = true), .refusedState, 2)]) ∧
    (s.Serves 8 b f → s.AnswersFirstFailure .warmReset b f
      [(decide (s.mode ≠ .run), .refusedMode, 0), (decide (f.payload = []), .badLength, 0)]) ∧
    (s.Serves 6 b f → f.payload = [] → s.mode = .run → ∃ t : State,
      exec .stop s = .next (t.answer b f { result := .done, detail := 0, payload := [] }) ∧
      t = s.departRun .standby ∧ t.mode = .standby ∧ t.log = s.log ∧ t.rsq.stage = .normal ∧ t.rsq.nest = []) ∧
    (s.Serves 7 b f → f.payload = [] →
      s.mode = .tripped ∨ (s.mode = .safeStop ∧ s.lines.safetyStopN = true) →
      exec .clear s =
        .next ({ s with mode := .standby }.answer b f { result := .done, detail := 0, payload := [] })) ∧
    (s.Serves 8 b f → f.payload = [] → s.mode ≠ .run → exec .warmReset s =
      .next ({ s with mga := { s.mga with warmPending := true } }.answer b f
        { result := .done, detail := 0, payload := [] }))

/-- R128, R125, R133, R152 and R161, in any mode: the checks of RELINK, FORCE_ZERO and RELEASE, in their order. RELINK of
a LOST port moves it to LINKING and is answered DONE; the roster does not change. FORCE_ZERO sets the port's mark of its
kind, and RELEASE clears the continuous mark and leaves the other pending. A payload without a port passes the first
check (DESIGN CHOICE, log 9). -/
def Obligations.PortRequests : Prop :=
  (∀ (s : State) (b : Fin 2) (f : MgtFrame),
    let port : Bool × Reject := (decide (f.payload = [] ∨ byteOr f.payload 0 ≤ 23), .badIndex, 0)
    let state := (s.links[byteOr f.payload 0]?).map Link.state
    (s.Serves 11 b f → s.AnswersFirstFailure .relink b f
      [port, (decide (f.payload.length = 1), .badLength, 0), (decide (state = some .lost), .refusedState, 0)]) ∧
    (s.Serves 9 b f → s.AnswersFirstFailure .forceZero b f
      [port, (decide (f.payload.length = 2), .badLength, 0), (decide (byteOr f.payload 1 ≤ 1), .badValue, 0),
       (decide (state ≠ some .idle), .refusedState, 0)]) ∧
    (s.Serves 10 b f → s.AnswersFirstFailure .release b f
      [port, (decide (f.payload.length = 1), .badLength, 0)])) ∧
  ∀ (s : State) (b : Fin 2) (f : MgtFrame) (p : Port), byteOr f.payload 0 = p.val →
    (s.Serves 11 b f → f.payload.length = 1 → (s.link p).state = .lost → exec .relink s =
      .next ({ s with links := s.links.set p.val { s.link p with
        state := .linking, missCount := 0, linkingCount := 0, accepted := false, tagSent := none } }.answer b f
        { result := .done, detail := 0, payload := [] })) ∧
    (s.Serves 9 b f → f.payload.length = 2 → (s.link p).state ≠ .idle →
      (byteOr f.payload 1 = 0 → exec .forceZero s =
        .next ({ s with links := s.links.set p.val { s.link p with forceOnce := true } }.answer b f
          { result := .done, detail := 0, payload := [] })) ∧
      (byteOr f.payload 1 = 1 → exec .forceZero s =
        .next ({ s with links := s.links.set p.val { s.link p with forceContinuous := true } }.answer b f
          { result := .done, detail := 0, payload := [] }))) ∧
    (s.Serves 10 b f → f.payload.length = 1 → exec .release s =
      .next ({ s with links := s.links.set p.val { s.link p with forceContinuous := false } }.answer b f
        { result := .done, detail := 0, payload := [] }))

/-! ### Events of a period start

Each of these commands is one step of a period start, which it opens where none is under way; `u` is the part once the
steps that the rules put before it have been taken (DESIGN CHOICE, log 2). -/

/-- R127, R4, R16, R36, R60, R66 and R120: a port that reaches its limit enters LOST at a period start. It stops sending:
the frame being sent completes, the frames before it having been sent in full (a free value, log 7). LINK_LOST is
raised, the contact becomes UNKNOWN with word and voltage kept, and its waiting entry leaves the queue (`v`). Then an
ACTIVE cell is latched LINK_LOST, in every mode; an ISOLATING cell trips the part in RUN under a policy without
blind_allowed; a selected SPARE loses its target, and its cell goes to selection again in INHIBIT and ISOLATE; for any
other cell nothing else changes. The port is judged before the others (DESIGN CHOICE, log 2). -/
def Obligations.PortEntersLost : Prop :=
  ∀ (p : Port) (s : State), s.lines.resetN = true →
    let u := s.openPeriod
    let l := u.link p
    let e := u.entry p
    let v : State := { u with
      links := u.links.set p.val { l with
        state := .lost, tagSent := none
        linkingCount := if l.state = .linking then l.linkingCount + 1 else l.linkingCount
        missCount := if l.state = .linking then l.missCount else l.missCount + 1
        transmit := (l.transmit.drop (Config.framesSent p l.moments)).take 1, moments := l.moments + 1 }
      roster := u.roster.set p.val { e with contact := .unknown }
      cli := { u.cli with flags := withFlag u.cli.flags .linkLost }
      bau := { u.bau with queue := u.bau.queue.filter (fun a => a.port != p || a.issued.isSome) }
      ps := { u.ps with judged := p :: u.ps.judged } }
    let freed : State := { v with roster := u.roster.set p.val { e with contact := .unknown, insertionTarget := none } }
    .links ∉ u.ps.taken → p ∉ u.ps.judged →
    (l.state = .linking ∧ l.tagSent.isSome = true ∧ 64 ≤ l.linkingCount + 1) ∨
    ((l.state = .up ∨ l.state = .missing) ∧ u.ps.answered[p.val] = false ∧
      u.settings.missLimit ≤ l.missCount + 1) →
    ∃ t : State, exec (.portLost p) s = .next t ∧
      (t.link p).state = .lost ∧ (t.link p).tagSent = none ∧
      (∀ q, q ≠ p → t.link q = { u.link q with transmit := (t.link q).transmit }) ∧
      hasFlag t.cli.flags .linkLost = true ∧
      (t.entry p).contact = .unknown ∧ (t.entry p).lastStatus = e.lastStatus ∧ (t.entry p).vdc = e.vdc ∧
      (∀ a ∈ t.bau.queue, a.port = p → a.issued.isSome = true) ∧
      (e.role = .bypassed ∨ e.role = .failed ∨ e.role = .absent ∨ (e.role = .spare ∧ e.insertionTarget = none) →
        t = v) ∧
      (e.role = .active → t = v.takeLatch { kind := .linkLost, port := p }) ∧
      (e.role = .isolating → u.mode = .run → u.governingPolicy.blindAllowed = false →
        t = v.requestTrip { cause := .linkLostNoBlind, port := some p } ∧ t.mode = .tripped) ∧
      (e.role = .isolating → u.mode ≠ .run ∨ u.governingPolicy.blindAllowed = true → t = v) ∧
      (e.role = .spare → e.insertionTarget.isSome = true →
        t = if u.rsq.stage = .inhibit ∨ u.rsq.stage = .isolate then freed.selectSpares else freed)

/-- R23, R24, R25, R27, R28, R29, R30, R46 and R48: the stage progressions of a period start. The first clause has those
that end a stage; RESUME ends with a RECOVERED record where an episode is open, and k stands at its last value then
(DEDUCED, log 19). The second has the sequencer's share of those that end none: the inhibit count below inhibit_hold, an
ISOLATE that has not settled, cells not yet aligned, no grant, and RESUME period k + 1 at g = floor(1024·(k+1)/R). The gap
count advances in the gap stages of an open episode, one that the same period start has opened included (DEDUCED, log 35),
but not at RESUME entry. -/
def Obligations.StagesEndAtPeriodStart : Prop :=
  (∀ s : State, s.lines.resetN = true →
    let u := s.openPeriod.prepare .sequencer
    let ps := { u.ps with taken := .sequencer :: u.ps.taken }
    let gap := if u.rsq.nest = [] then u.rsq.gapCount else u.rsq.gapCount + 1
    .sequencer ∉ u.ps.taken → u.mode = .run →
    (u.rsq.stage = .inhibit → u.rsq.nest ≠ [] → u.rsq.gapCount + 1 < u.governingPolicy.gapBudget →
      u.ps.inhibitEntered = false → u.settings.inhibitHold ≤ u.rsq.inhibitCount + 1 →
      exec .inhibitHoldExpiry s = .next { u with
        rsq := { u.rsq with stage := .isolate, inhibitCount := u.rsq.inhibitCount + 1, gapCount := gap }
        bau := { u.bau with settleCount := 0 }, roster := u.selectSpares.roster, ps := ps }) ∧
    (u.rsq.stage = .isolate → u.rsq.nest ≠ [] → u.rsq.gapCount + 1 < u.governingPolicy.gapBudget →
      u.ps.settleDone = true →
      exec .settleComplete s = .next { u with
        rsq := { u.rsq with stage := .remap, gapCount := gap }, ps := ps }) ∧
    (u.rsq.stage = .align → (u.rsq.nest ≠ [] → u.rsq.gapCount + 1 < u.governingPolicy.gapBudget) →
      u.ctu.windowStart.isSome = true → (∀ p, (u.entry p).inString = true → (u.cport p).aligned = true) →
      exec .alignComplete s = .next { u with
        rsq := { u.rsq with stage := .awaitGrant, gapCount := gap }, ctu := { u.ctu with windowStart := none }
        ps := ps }) ∧
    (u.rsq.stage = .awaitGrant → u.rsq.grantPending = true →
      exec .resumeEntry s = .next { u with
        rsq := { u.rsq with stage := .resume, grantPending := false, resumeIndex := 1
                            resumeLength := u.governingPolicy.rampPeriods
                            rampGain := 1024 / u.governingPolicy.rampPeriods }
        ps := ps }) ∧
    (u.rsq.stage = .resume → u.rsq.resumeLength ≤ u.rsq.resumeIndex →
      (u.rsq.nest = [] → exec .resumeEnd s = .next { u with
        rsq := { u.rsq with stage := .normal, rampGain := 1024 }, ps := ps }) ∧
      (u.rsq.nest ≠ [] → exec .resumeEnd s = .next { u with
        rsq := { u.rsq with stage := .normal, rampGain := 1024, nest := [] }, ps := ps
        cli := { u.cli with flags := withFlag u.cli.flags .logWritten }
        log := { next := u.log.next + 1, records := keepSixteen (u.log.records ++
          [{ sequence := u.log.next, stamp := u.ctu.counter, port := none, kind := .recovered, word := none,
             mode := .run, stage := .normal, restartNumber := u.rsq.restartNumber, nestDepth := u.rsq.nest.length,
             deficits := some u.deficits }]) } }))) ∧
  ∀ s : State,
    let gap := if s.rsq.nest = [] then s.rsq.gapCount else s.rsq.gapCount + 1
    let within := s.rsq.nest ≠ [] → s.rsq.gapCount + 1 < s.governingPolicy.gapBudget
    (s.mode ≠ .run ∨ s.rsq.stage = .normal → s.runStep .sequencer = s) ∧
    (s.mode = .run → s.rsq.stage = .inhibit → within → s.ps.inhibitEntered = true →
      s.runStep .sequencer = { s with rsq := { s.rsq with gapCount := gap } }) ∧
    (s.mode = .run → s.rsq.stage = .inhibit → within → s.ps.inhibitEntered = false →
      s.rsq.inhibitCount + 1 < s.settings.inhibitHold →
      s.runStep .sequencer =
        { s with rsq := { s.rsq with gapCount := gap, inhibitCount := s.rsq.inhibitCount + 1 } }) ∧
    (s.mode = .run → within →
      (s.rsq.stage = .isolate ∧ s.ps.settleDone = false) ∨ (s.rsq.stage = .awaitGrant ∧ s.rsq.grantPending = false) ∨
      (s.rsq.stage = .align ∧ (s.ctu.windowStart = none ∨
        ∃ p, (s.entry p).inString = true ∧ (s.cport p).aligned = false)) →
      s.runStep .sequencer = { s with rsq := { s.rsq with gapCount := gap } }) ∧
    (s.mode = .run → s.rsq.stage = .resume → s.rsq.resumeIndex < s.rsq.resumeLength →
      s.runStep .sequencer = { s with rsq := { s.rsq with
        resumeIndex := s.rsq.resumeIndex + 1
        rampGain := 1024 * (s.rsq.resumeIndex + 1) / s.rsq.resumeLength } })

/-- R26, R17, R39, R42, R44, R111 and R156: REMAP completion rebuilds the strings (`r`), applies the RECOVERY marks, a
copied screen table with its hit counts at 0 and COMMIT_APPLIED raised where a bank was copied (`w`), and makes the
lookup: with no valid entry the part trips with the deficit tuple; with no cell deferred ALIGN is entered; otherwise
every deferred cell becomes ISOLATING, one context is pushed and INHIBIT is entered. Beyond max_nest the deferred cells
trip the part with NEST_LIMIT, naming the lowest of them; where one of them is on a LOST port under a policy without
blind_allowed they trip it with LINK_LOST_NO_BLIND, naming the lowest such port, before max_nest is looked at (DEDUCED,
log 18). Each trip is requested of the part as it stands then (`w`, or `v` with the deferred cells ISOLATING), and
TripRequestDeparts gives the rest. That k is 0 after the push is DEDUCED (log 19), and so is that the urgent BLOCK's
neutral pair is at the P in force (log 30). The rebuild leaves in each string the ACTIVE cells and the confirmed
spares, each spare in the place of the cell it replaces, every ISOLATING cell and every other selected spare being
taken out, and numbers the strings 0..N−1. -/
def Obligations.RemapCompletes : Prop :=
  ∀ s : State, s.lines.resetN = true →
    let u := s.openPeriod.prepare .sequencer
    .sequencer ∉ u.ps.taken → u.mode = .run → u.rsq.stage = .remap → u.rsq.nest ≠ [] →
    u.rsq.gapCount + 1 < u.governingPolicy.gapBudget →
    let r := u.rebuild
    let bank := if u.mga.recoveryMarks.rebalance then u.rebalStaged else u.rebalActive
    let found := rebalLookup u.settings.nNom bank r.deficits
    let deferred := fun p : Port => (r.entry p).role = .active ∧ (r.entry p).deferred = true
    let lost := fun p : Port => (u.link p).state = .lost
    let replaces := fun p : Port => u.openingConfirmed p = true ∧
      ∃ q, (u.entry p).insertionTarget = some q ∧ (u.entry q).role = .isolating
    let place := fun p : Port =>
      if (u.entry p).role = .spare then (u.entry p).insertionTarget.bind (fun q => (u.entry q).position)
      else (u.entry p).position
    let record := fun (kind : LogKind) (port : Option Port) (deficits : Option (Tri Nat)) =>
      LogRecord.mk u.log.next u.ctu.counter port kind none .run .remap u.rsq.restartNumber u.rsq.nest.length deficits
    let marks := u.mga.recoveryMarks
    let w : State := { u with
      roster := r.roster, bau := { u.bau with blindStart := Vector.replicate 24 none }
      rsq := { u.rsq with gapCount := u.rsq.gapCount + 1 }, rebalActive := bank
      screenActive := if marks.screen then u.screenStaged else u.screenActive
      policyActive := if marks.policy then u.policyStaged else u.policyActive
      ssc := if marks.screen then { u.ssc with hits := Vector.replicate 16 0 } else u.ssc
      cli := if marks.screen ∨ marks.rebalance ∨ marks.policy
        then { u.cli with flags := withFlag u.cli.flags .commitApplied } else u.cli
      mga := { u.mga with recoveryMarks := ⟨false, false, false⟩ }
      ps := { u.ps with taken := .sequencer :: u.ps.taken } }
    ∃ t v : State, exec .remapCompletion s = .next t ∧
      v = { w with roster := v.roster, bau := { w.bau with blindStart := v.bau.blindStart } } ∧
      (∀ p : Port, v.entry p = (if deferred p then { r.entry p with role := .isolating, deferred := false }
          else r.entry p) ∧ v.bau.blindStart[p.val] = if deferred p then some u.ctu.counter else none) ∧
      t.rebalActive = bank ∧
      t.screenActive = (if u.mga.recoveryMarks.screen then u.screenStaged else u.screenActive) ∧
      t.policyActive = (if u.mga.recoveryMarks.policy then u.policyStaged else u.policyActive) ∧
      t.mga = { u.mga with recoveryMarks := ⟨false, false, false⟩ } ∧
      t.rsq.gapCount = u.rsq.gapCount + 1 ∧
      (found = none → t = w.requestTrip { cause := .noRebalance, deficits := some r.deficits } ∧ t.mode = .tripped ∧
        t.log.records.getLast? = some (record .noRebalance none (some r.deficits))) ∧
      (found.isSome = true → (∀ p, ¬deferred p) →
        t.mode = .run ∧ t.roster = r.roster ∧ t.log = u.log ∧ t.links = u.links ∧
        t.rsq = { u.rsq with stage := .align, gapCount := u.rsq.gapCount + 1 } ∧ t.ctu.windowStart = none ∧
        t = { w with rsq := t.rsq, ctu := { w.ctu with windowStart := none } }) ∧
      (found.isSome = true → (∃ p, deferred p) → ∀ policy, u.episodePolicy = some policy →
        (u.rsq.nest.length < policy.maxNest → (∀ p, deferred p → ¬lost p) ∨ policy.blindAllowed = true →
          t.mode = .run ∧ t.log = u.log ∧ t.ctu.windowStart = none ∧
          t.rsq = { u.rsq with
            stage := .inhibit, inhibitCount := 0, restartNumber := u.rsq.restartNumber + 1
            gapCount := u.rsq.gapCount + 1, grantPending := false, resumeIndex := 0, rampGain := 1024
            nest := u.rsq.nest ++
              [{ restartNumber := u.rsq.restartNumber + 1, interrupted := .remap, deficits := t.deficits,
                 motion := u.cli.motion, gapCount := u.rsq.gapCount + 1, policy := none }] } ∧
          (∀ p, t.link p = { u.link p with transmit := if (u.link p).state.sends
            then (u.link p).transmit ++ [u.urgentFrame p .block] else (u.link p).transmit }) ∧
          ∀ p : Port, t.entry p = (if deferred p then { r.entry p with role := .isolating, deferred := false }
              else r.entry p) ∧
            t.bau.blindStart[p.val] = if deferred p then some u.ctu.counter else none) ∧
        (u.rsq.nest.length < policy.maxNest → (∀ p, deferred p → ¬lost p) ∨ policy.blindAllowed = true →
          t = { v with rsq := t.rsq, links := t.links, ctu := { v.ctu with windowStart := none }, ps := t.ps }) ∧
        (∀ p, deferred p → lost p → (∀ q, q < p → ¬(deferred q ∧ lost q)) → policy.blindAllowed = false →
          t = v.requestTrip { cause := .linkLostNoBlind, port := some p } ∧
          t.mode = .tripped ∧ t.log.records.getLast? = some (record .linkLostNoBlind (some p) none)) ∧
        (∀ p, deferred p → (∀ q, q < p → ¬deferred q) →
          (∀ q, deferred q → ¬lost q) ∨ policy.blindAllowed = true → policy.maxNest ≤ u.rsq.nest.length →
          t = v.requestTrip { cause := .nestLimit, port := some p } ∧
          t.mode = .tripped ∧ t.log.records.getLast? = some (record .nestLimit (some p) none)) ∧
        (t.mode = .tripped → t.rsq.restartNumber = u.rsq.restartNumber ∧
          ∀ p, deferred p → (t.entry p).role = if r.closureOk p then .bypassed else .failed)) ∧
      r = { u with roster := r.roster, bau := { u.bau with blindStart := Vector.replicate 24 none } } ∧
      (∀ p, r.entry p = { u.entry p with
        role := (r.entry p).role, position := (r.entry p).position, insertionTarget := (r.entry p).insertionTarget }) ∧
      (∀ p, (r.entry p).role =
        if (u.entry p).role = .isolating then .bypassed else if replaces p then .active else (u.entry p).role) ∧
      (∀ p, (r.entry p).role = .spare → (r.entry p).insertionTarget = none) ∧
      (∀ x p, p ∈ r.phaseString x ↔ phaseOf p = x ∧ ((u.entry p).role = .active ∨ replaces p)) ∧
      (∀ x, (r.phaseString x).Pairwise (fun p q =>
        (place p).getD 8 < (place q).getD 8 ∨ ((place p).getD 8 = (place q).getD 8 ∧ p < q))) ∧
      (∀ x, (r.phaseString x).map (fun p => (r.entry p).position) = (List.range (r.stringLength x)).map some)

/-- R106: when the alignment window closes, ALIGN_FAIL is raised and one ALIGN_FAIL latch is handed on for every string
cell not marked aligned, by ascending port, for as long as the mode is RUN (log 12). -/
def Obligations.AlignWindowCloses : Prop :=
  ∀ s : State, s.lines.resetN = true →
    let u := s.openPeriod.prepare .window
    .window ∉ u.ps.taken → u.mode = .run → u.rsq.stage = .align →
    u.ctu.windowStart = some (u.ctu.counter - BitVec.ofNat 32 u.settings.alignLimit) →
    let failing := (List.finRange 24).filter (fun p => (u.entry p).inString && !(u.cport p).aligned)
    failing ≠ [] →
    exec .alignWindowExpiry s = .next (failing.foldl
      (fun v p => if v.mode = .run then v.takeLatch { kind := .alignFail, port := p } else v)
      { u with cli := { u.cli with flags := withFlag u.cli.flags .alignFail }
               ps := { u.ps with taken := .window :: u.ps.taken } })

/-- R46, R144 and R50: the gap count reaching the gap budget, and the hold count reaching ref_hold_limit in RUN, trip
the part with GAP_EXPIRED and CONTROL_LOST: each is requested of the part with the count at what it reached, and
TripRequestDeparts and DepartureFromRun give the rest; the records name no port. An episode that the same period start
has opened counts (DEDUCED, log 35). Where GAP_EXPIRED and the BYPASS_FAIL of an ISOLATING cell's closing come together
(R50, R72), either is taken first, after an ISOLATE period too (R68 against R50: DEDUCED, log 40), and the part is
tripped with that record alone. -/
def Obligations.CountsTripPart : Prop :=
  ∀ s : State, s.lines.resetN = true →
    (let u := s.openPeriod.prepare .sequencer
     .sequencer ∉ u.ps.taken → u.mode = .run → u.rsq.nest ≠ [] →
     (u.rsq.stage = .inhibit ∨ u.rsq.stage = .isolate ∨ u.rsq.stage = .remap ∨ u.rsq.stage = .align ∨
       (u.rsq.stage = .awaitGrant ∧ u.rsq.grantPending = false)) →
     u.governingPolicy.gapBudget ≤ u.rsq.gapCount + 1 →
     ∃ t : State, exec .gapExpired s = .next t ∧
       t = ({ u with rsq := { u.rsq with gapCount := u.rsq.gapCount + 1 }
                     ps := { u.ps with taken := .sequencer :: u.ps.taken } } : State).requestTrip
         { cause := .gapExpired } ∧
       t.mode = .tripped ∧ t.rsq.gapCount = u.rsq.gapCount + 1 ∧ t.rsq.stage = .normal ∧ t.rsq.nest = [] ∧
       t.log = { next := u.log.next + 1, records := keepSixteen (u.log.records ++
         [{ sequence := u.log.next, stamp := u.ctu.counter, port := none, kind := .gapExpired, word := none,
            mode := .run, stage := u.rsq.stage, restartNumber := u.rsq.restartNumber,
            nestDepth := u.rsq.nest.length, deficits := none }]) }) ∧
    (let u := s.openPeriod.prepare .hold
     .hold ∉ u.ps.taken → u.mode = .run → u.cli.current = none → u.cli.holdCount + 1 = u.settings.refHoldLimit →
     ∃ t : State, exec .controlLost s = .next t ∧
       t = ({ u with cli := { u.cli with holdCount := u.settings.refHoldLimit }
                     ps := { u.ps with taken := .hold :: u.ps.taken } } : State).requestTrip
         { cause := .controlLost } ∧
       t.mode = .tripped ∧ t.cli.holdCount = u.settings.refHoldLimit ∧ t.rsq.stage = .normal ∧ t.rsq.nest = [] ∧
       t.log = { next := u.log.next + 1, records := keepSixteen (u.log.records ++
         [{ sequence := u.log.next, stamp := u.ctu.counter, port := none, kind := .controlLost, word := none,
            mode := .run, stage := u.rsq.stage, restartNumber := u.rsq.restartNumber,
            nestDepth := u.rsq.nest.length, deficits := none }]) }) ∧
    (let u := s.openPeriod
     let record := fun (kind : LogKind) (port : Option Port) =>
       LogRecord.mk u.log.next u.ctu.counter port kind none .run .isolate u.rsq.restartNumber u.rsq.nest.length none
     ∀ (a : Actuation) (rest : List Actuation) (i : Period),
     .sequencer ∉ u.ps.taken → .fail ∉ u.ps.taken → u.mode = .run → u.rsq.stage = .isolate → u.rsq.nest ≠ [] →
     u.governingPolicy.gapBudget ≤ u.rsq.gapCount + 1 →
     u.bau.queue = a :: rest → a.issued = some i → u.settings.confirmLimit ≤ (u.ctu.counter - i).toNat →
     a.dir = .closed → (u.entry a.port).role = .isolating → (u.link a.port).state ≠ .lost →
     (∃ t : State, exec .gapExpired s = .next t ∧ t.mode = .tripped ∧ t.rsq.gapCount = u.rsq.gapCount + 1 ∧
       t.log = { next := u.log.next + 1, records := keepSixteen (u.log.records ++ [record .gapExpired none]) } ∧
       ∃ v : State, exec .actuationFailure t = .next v ∧ v.mode = .tripped ∧ v.log = t.log) ∧
     ∃ t : State, exec .actuationFailure s = .next t ∧ t.mode = .tripped ∧ t.rsq.gapCount = u.rsq.gapCount ∧
       t.log = { next := u.log.next + 1, records := keepSixteen (u.log.records ++ [record .bypassFail (some a.port)]) } ∧
       exec .gapExpired t = .next t)

/-- R62, R63, R64, R18 and R15: an entry in flight whose window has closed leaves the queue and sets its port's retry
mark. A failed CLOSED of an ISOLATING cell in RUN on a port that is not LOST trips the part and raises BYPASS_FAIL
(DEDUCED from R147, log 29), and compaction makes the cell FAILED, unless it is blind, whatever contact is recorded
(DEDUCED, log 32); a failed OPEN of a SPARE costs it its target, makes it ineligible unless its port is LOST, with
SPARE_OPEN_FAIL and a record, and, where the failure falls in INHIBIT or ISOLATE and in no other stage, makes spare
selection due for the cell it abandons; every other failure raises BYPASS_FAIL and does nothing else. A port that R63 or R64 has reconciled again at the next period start is kept from
this one's reconciliation (DEDUCED, log 31). Selection for the abandoned cell is a step of its own (DESIGN CHOICE, log
1), in INHIBIT and ISOLATE. -/
def Obligations.ActuationFails : Prop :=
  (∀ (s : State) (a : Actuation) (rest : List Actuation) (i : Period), s.lines.resetN = true →
    let u := s.openPeriod.prepare .fail
    .fail ∉ u.ps.taken → u.bau.queue = a :: rest → a.issued = some i →
    u.settings.confirmLimit ≤ (u.ctu.counter - i).toNat →
    let e := u.entry a.port
    let bau := { u.bau with queue := rest, retry := u.bau.retry.set a.port.val true }
    let ps := { u.ps with taken := .fail :: u.ps.taken }
    (a.dir = .closed → e.role = .isolating → u.mode = .run → (u.link a.port).state ≠ .lost →
      ∃ t : State, exec .actuationFailure s = .next t ∧ t.mode = .tripped ∧ t.bau.retry = bau.retry ∧
        t.bau.queue = rest.filter (fun x => x.dir == .closed || x.issued.isSome) ∧
        (t.entry a.port).role = (if e.blind then .bypassed else .failed) ∧ (t.entry a.port).position = none ∧
        hasFlag t.cli.flags .bypassFail = true ∧ t.ps.failed = some a.port ∧
        t.log = { next := u.log.next + 1, records := keepSixteen (u.log.records ++
          [{ sequence := u.log.next, stamp := u.ctu.counter, port := some a.port, kind := .bypassFail, word := none,
             mode := .run, stage := u.rsq.stage, restartNumber := u.rsq.restartNumber,
             nestDepth := u.rsq.nest.length, deficits := none }]) }) ∧
    (a.dir = .opened → e.role = .spare →
      exec .actuationFailure s = .next { u with
        bau := bau
        ps := { ps with selectionDue :=
          e.insertionTarget.isSome && decide (u.rsq.stage = .inhibit ∨ u.rsq.stage = .isolate) }
        roster := u.roster.set a.port.val { e with
          insertionTarget := none, ineligible := e.ineligible || (u.link a.port).state != .lost }
        cli := { u.cli with flags := withFlag (withFlag u.cli.flags .spareOpenFail) .logWritten }
        log := { next := u.log.next + 1, records := keepSixteen (u.log.records ++
          [{ sequence := u.log.next, stamp := u.ctu.counter, port := some a.port, kind := .spareOpenFail,
             word := none, mode := u.mode, stage := u.rsq.stage, restartNumber := u.rsq.restartNumber,
             nestDepth := u.rsq.nest.length, deficits := none }]) } }) ∧
    (¬(a.dir = .closed ∧ e.role = .isolating ∧ u.mode = .run ∧ (u.link a.port).state ≠ .lost) →
      ¬(a.dir = .opened ∧ e.role = .spare) →
      exec .actuationFailure s = .next { u with
        bau := bau, cli := { u.cli with flags := withFlag u.cli.flags .bypassFail }
        ps := { ps with failed := if a.dir = .closed ∨ (e.role = .active ∧ u.mode ≠ .run) then some a.port
                  else u.ps.failed } })) ∧
  ∀ s : State,
    let t : State := { s with ps := { s.ps with selectionDue := false } }
    (s.ps.selectionDue = true → s.rsq.stage = .inhibit ∨ s.rsq.stage = .isolate →
      s.runStep .select = t.selectSpares) ∧
    (s.ps.selectionDue = false ∨ (s.rsq.stage ≠ .inhibit ∧ s.rsq.stage ≠ .isolate) → s.runStep .select = t)

/-- R65: at a period start every LOST ISOLATING cell whose blind wait has run out under a policy with blind_allowed is
deemed closed: blind is set and the bypass order becomes CLOSED, and its CLOSED entry in flight leaves the queue. No
other cell is touched. -/
def Obligations.BlindDeemingCloses : Prop :=
  ∀ s : State, s.lines.resetN = true →
    let u := s.openPeriod.prepare .deem
    let due := fun p : Port => (u.entry p).role = .isolating ∧ (u.link p).state = .lost ∧
      (∃ e, u.episodePolicy = some e ∧ e.blindAllowed = true) ∧ (u.entry p).blind = false ∧
      ∃ b, u.bau.blindStart[p.val] = some b ∧ u.settings.blindWait ≤ (u.ctu.counter - b).toNat
    .deem ∉ u.ps.taken → (∃ p, due p) →
    ∃ t : State, exec .blindDeeming s = .next t ∧
      (∀ p, due p → t.entry p = { u.entry p with blind := true, bypassOrder := .closed }) ∧
      (∀ p, ¬due p → t.entry p = u.entry p) ∧
      t = { u with roster := t.roster, bau := { u.bau with queue := t.bau.queue }
                   ps := { u.ps with taken := .deem :: u.ps.taken } } ∧
      (∀ a rest, u.bau.queue = a :: rest → (∀ x ∈ rest, x.issued = none) →
        t.bau.queue = if due a.port ∧ a.dir = .closed ∧ a.issued.isSome = true then rest else u.bau.queue)

/-- R58, R59, R53: the head entry is issued when none is in flight, the effective supply formed at this period start is
OK, and the mode is not RUN or the stage is ISOLATE: its issue period is set and the port's bypass order becomes its
direction; nothing else changes. With the supply NOT_OK, an entry in flight, no entry, or in RUN outside ISOLATE, nothing
is issued: ACTUATION_ISSUE is no event then (DESIGN CHOICE, log 3), and a whole period start, in any order, leaves no
entry in flight that was not, and no bypass order changed but that of a cell deemed closed, in every part that keeps the
laws of the queue, the gap and the carrier, which are statements of their own. `b` is the part once the replies due are
sent (log 8). -/
def Obligations.HeadEntryIssued : Prop :=
  (∀ (ok : Bool) (s : State), s.lines.resetN = true →
    let u := (s.openPeriod.setSupply ok).prepare .issue
    let supply := u.bau.supply.oldest && u.bau.supply.middle || u.bau.supply.oldest && u.bau.supply.newest ||
      u.bau.supply.middle && u.bau.supply.newest
    (∀ (a : Actuation) (rest : List Actuation),
      .issue ∉ u.ps.taken → u.bau.queue = a :: rest → a.issued = none → supply = true →
      u.mode ≠ .run ∨ u.rsq.stage = .isolate →
      exec (.actuationIssue ok) s = .next { u with
        bau := { u.bau with queue := { a with issued := some u.ctu.counter } :: rest }
        roster := u.roster.set a.port.val { u.entry a.port with bypassOrder := a.dir }
        ps := { u.ps with taken := .issue :: u.ps.taken } }) ∧
    (supply = false ∨ (u.mode = .run ∧ u.rsq.stage ≠ .isolate) ∨ u.bau.queue = [] ∨
        (∃ a rest, u.bau.queue = a :: rest ∧ a.issued.isSome = true) →
      exec (.actuationIssue ok) s = .next s)) ∧
  ∀ (ok : Bool) (order : List PsStep) (s : State), s.Settled → s.QueueLaw → s.GapLaw → s.CarrierLaw →
    let b := s.sendDue
    let supply := b.bau.supply.middle && b.bau.supply.newest || b.bau.supply.middle && ok || b.bau.supply.newest && ok
    ∃ t : State, exec (.periodStart ok order) s = .next t ∧
    (supply = false ∨ (t.mode = .run ∧ t.rsq.stage ≠ .isolate) ∨
        (∃ a rest, b.bau.queue = a :: rest ∧ a.issued.isSome = true ∧ a ∈ t.bau.queue) →
      (∀ a ∈ t.bau.queue, a.issued.isSome = true → a ∈ b.bau.queue) ∧
      ∀ p, (t.entry p).bypassOrder = (b.entry p).bypassOrder ∨
        ((b.entry p).blind = false ∧ (t.entry p).blind = true ∧ (t.entry p).bypassOrder = .closed))

/-- R118 and R156: at the leak every clip bucket above 0 loses one and the leak count starts again; the PERIOD marks
are applied outside RUN and in NORMAL, each group named being copied, but for a REBALANCE mark in RUN without a valid
staged entry at the present tuple, which is dropped. -/
def Obligations.LeakAndPeriodMarks : Prop :=
  ∀ s : State, s.lines.resetN = true →
    (let u := s.openPeriod.prepare .leak
     .leak ∉ u.ps.taken → u.settings.leakInterval ≤ u.ssc.leakCount + 1 →
     ∃ t : State, exec .clipLeak s = .next t ∧
       (∀ p, t.entry p = { u.entry p with clipBucket := (u.entry p).clipBucket - 1 }) ∧
       t = { u with roster := t.roster, ssc := { u.ssc with leakCount := 0 }
                    ps := { u.ps with taken := .leak :: u.ps.taken } }) ∧
    (let u := s.openPeriod.prepare .commit
     let m := u.mga.periodMarks
     let drop := m.rebalance && u.mode == .run &&
       (rebalLookup u.settings.nNom u.rebalStaged u.deficits).isNone
     .commit ∉ u.ps.taken → u.mode ≠ .run ∨ u.rsq.stage = .normal →
     m.screen = true ∨ m.rebalance = true ∨ m.policy = true →
     ∃ t : State, exec .periodCommitApply s = .next t ∧
       t.screenActive = (if m.screen then u.screenStaged else u.screenActive) ∧
       t.rebalActive = (if m.rebalance && !drop then u.rebalStaged else u.rebalActive) ∧
       t.policyActive = (if m.policy then u.policyStaged else u.policyActive) ∧
       (∀ i : Fin 16, t.ssc.hits[i.val] = if m.screen then 0 else u.ssc.hits[i.val]) ∧
       t.mga = { u.mga with periodMarks := ⟨false, false, false⟩ } ∧
       (∀ x, hasFlag t.cli.flags x = (hasFlag u.cli.flags x || (x == .commitDropped && drop) ||
         (x == .commitApplied && (m.screen || (m.rebalance && !drop) || m.policy)))) ∧
       t = { u with screenActive := t.screenActive, rebalActive := t.rebalActive, policyActive := t.policyActive
                    ssc := { u.ssc with hits := t.ssc.hits }, mga := t.mga
                    cli := { u.cli with flags := t.cli.flags }
                    ps := { u.ps with taken := .commit :: u.ps.taken } })

/-! ### Arithmetic of the transform and of the carrier -/

/-- R82 and R84: a quotient is rounded to the nearest integer with halves away from zero, the ramp rounds so and never
makes an output larger; the compare pair is the floor of R84, its two values lie in 0..P and add to P, and C_L does not
fall as the index rises. -/
def Obligations.RampAndComparePair : Prop :=
  (∀ (n : Int) (d : Nat), 0 < d → 2 * (roundDiv n d * d - n).natAbs ≤ d ∧
    (2 * (roundDiv n d * d - n).natAbs = d → n.natAbs < (roundDiv n d * d).natAbs)) ∧
  (∀ (y : Int) (g : Nat), 2 * (rampOut y g * 1024 - y * g).natAbs ≤ 1024 ∧
    (2 * (rampOut y g * 1024 - y * g).natAbs = 1024 → (y * g).natAbs < (rampOut y g * 1024).natAbs) ∧
    (g ≤ 1024 → (rampOut y g).natAbs ≤ y.natAbs) ∧ rampOut y 1024 = y) ∧
  (∀ (p : Nat) (m : Int), 100 ≤ p → p ≤ 4000 → -32767 ≤ m → m ≤ 32767 →
    ((pairOf p m).cL : Int) = (p * (m + 32768) + 32768) / 65536 ∧
    (pairOf p m).cL ≤ p ∧ (pairOf p m).cL + (pairOf p m).cR = p ∧
    (∀ m', m ≤ m' → m' ≤ 32767 → (pairOf p m).cL ≤ (pairOf p m').cL) ∧
    (pairOf p 32767).cR = 0 ∧ (pairOf p (-32767)).cL = 0 ∧ pairOf p 0 = neutralPair p)

/-- R96, R97, R98 and R100: a target lies in 0..2P−1; a cell that takes the phase load of its target and holds it reads
back as on target; a phase error lies in (−P, P] and differs from the raw error by a whole cycle or nothing; a trim is
the error within J and never larger than J. -/
def Obligations.CarrierArithmetic : Prop :=
  ∀ (p : Nat), 100 ≤ p → p ≤ 4000 →
    (∀ base k n, targetOf base k p n < 2 * p ∧ targetOf base k p n = (base + k * p / n) % (2 * p)) ∧
    (∀ t d, t < 2 * p → ∃ c down, loadOf t d p = .load c down ∧ c ≤ p ∧ (c = 0 → down = false) ∧
      (down = false → c = (t + d) % (2 * p)) ∧ (down = true → 2 * p - c = (t + d) % (2 * p)) ∧
      correctedOf ((t + d) % (2 * p)) d p = t) ∧
    (∀ raw : Int, -(2 * p : Int) < raw → raw < 2 * p → -(p : Int) < wrapError raw p ∧ wrapError raw p ≤ p ∧
      (wrapError raw p = raw ∨ wrapError raw p = raw - 2 * p ∨ wrapError raw p = raw + 2 * p)) ∧
    (∀ (e : Int) (j : Nat), (trimOf e j).natAbs ≤ j ∧ (e.natAbs ≤ j → trimOf e j = e) ∧
      (j < e.natAbs → trimOf e j = j * e.sign))
end

