-- ==== Sys2Proof/Laws/State.lean ====
section
/-! SUPPORT. One lemma per field per update of State, and the reads of one port's records after an update. -/

namespace Sys2Proof.Machine.State

variable (s : State)

/-! ### updEntry -/

@[simp] theorem updEntry_lines (p : Port) (f : RosterEntry → RosterEntry) : (s.updEntry p f).lines = s.lines := rfl
@[simp] theorem updEntry_mode (p : Port) (f : RosterEntry → RosterEntry) : (s.updEntry p f).mode = s.mode := rfl
@[simp] theorem updEntry_roster (p : Port) (f : RosterEntry → RosterEntry) : (s.updEntry p f).roster = s.roster.set p.val (f (s.entry p)) := rfl
@[simp] theorem updEntry_policyStaged (p : Port) (f : RosterEntry → RosterEntry) : (s.updEntry p f).policyStaged = s.policyStaged := rfl
@[simp] theorem updEntry_policyActive (p : Port) (f : RosterEntry → RosterEntry) : (s.updEntry p f).policyActive = s.policyActive := rfl
@[simp] theorem updEntry_rsq (p : Port) (f : RosterEntry → RosterEntry) : (s.updEntry p f).rsq = s.rsq := rfl
@[simp] theorem updEntry_bau (p : Port) (f : RosterEntry → RosterEntry) : (s.updEntry p f).bau = s.bau := rfl
@[simp] theorem updEntry_rebalStaged (p : Port) (f : RosterEntry → RosterEntry) : (s.updEntry p f).rebalStaged = s.rebalStaged := rfl
@[simp] theorem updEntry_rebalActive (p : Port) (f : RosterEntry → RosterEntry) : (s.updEntry p f).rebalActive = s.rebalActive := rfl
@[simp] theorem updEntry_rtu (p : Port) (f : RosterEntry → RosterEntry) : (s.updEntry p f).rtu = s.rtu := rfl
@[simp] theorem updEntry_ctu (p : Port) (f : RosterEntry → RosterEntry) : (s.updEntry p f).ctu = s.ctu := rfl
@[simp] theorem updEntry_screenStaged (p : Port) (f : RosterEntry → RosterEntry) : (s.updEntry p f).screenStaged = s.screenStaged := rfl
@[simp] theorem updEntry_screenActive (p : Port) (f : RosterEntry → RosterEntry) : (s.updEntry p f).screenActive = s.screenActive := rfl
@[simp] theorem updEntry_ssc (p : Port) (f : RosterEntry → RosterEntry) : (s.updEntry p f).ssc = s.ssc := rfl
@[simp] theorem updEntry_links (p : Port) (f : RosterEntry → RosterEntry) : (s.updEntry p f).links = s.links := rfl
@[simp] theorem updEntry_cli (p : Port) (f : RosterEntry → RosterEntry) : (s.updEntry p f).cli = s.cli := rfl
@[simp] theorem updEntry_mga (p : Port) (f : RosterEntry → RosterEntry) : (s.updEntry p f).mga = s.mga := rfl
@[simp] theorem updEntry_settings (p : Port) (f : RosterEntry → RosterEntry) : (s.updEntry p f).settings = s.settings := rfl
@[simp] theorem updEntry_log (p : Port) (f : RosterEntry → RosterEntry) : (s.updEntry p f).log = s.log := rfl
@[simp] theorem updEntry_ps (p : Port) (f : RosterEntry → RosterEntry) : (s.updEntry p f).ps = s.ps := rfl
@[simp] theorem updEntry_pending (p : Port) (f : RosterEntry → RosterEntry) : (s.updEntry p f).pending = s.pending := rfl
@[simp] theorem updEntry_link (p : Port) (f : RosterEntry → RosterEntry) (q : Port) : (s.updEntry p f).link q = s.link q := rfl
@[simp] theorem updEntry_cport (p : Port) (f : RosterEntry → RosterEntry) (q : Port) : (s.updEntry p f).cport q = s.cport q := rfl

/-! ### mapEntries -/

@[simp] theorem mapEntries_lines (f : Port → RosterEntry → RosterEntry) : (s.mapEntries f).lines = s.lines := by
  simp only [mapEntries]
@[simp] theorem mapEntries_mode (f : Port → RosterEntry → RosterEntry) : (s.mapEntries f).mode = s.mode := by
  simp only [mapEntries]
@[simp] theorem mapEntries_roster (f : Port → RosterEntry → RosterEntry) : (s.mapEntries f).roster = Vector.ofFn (fun p => f p (s.entry p)) := by
  simp only [mapEntries]
@[simp] theorem mapEntries_policyStaged (f : Port → RosterEntry → RosterEntry) : (s.mapEntries f).policyStaged = s.policyStaged := by
  simp only [mapEntries]
@[simp] theorem mapEntries_policyActive (f : Port → RosterEntry → RosterEntry) : (s.mapEntries f).policyActive = s.policyActive := by
  simp only [mapEntries]
@[simp] theorem mapEntries_rsq (f : Port → RosterEntry → RosterEntry) : (s.mapEntries f).rsq = s.rsq := by
  simp only [mapEntries]
@[simp] theorem mapEntries_bau (f : Port → RosterEntry → RosterEntry) : (s.mapEntries f).bau = s.bau := by
  simp only [mapEntries]
@[simp] theorem mapEntries_rebalStaged (f : Port → RosterEntry → RosterEntry) : (s.mapEntries f).rebalStaged = s.rebalStaged := by
  simp only [mapEntries]
@[simp] theorem mapEntries_rebalActive (f : Port → RosterEntry → RosterEntry) : (s.mapEntries f).rebalActive = s.rebalActive := by
  simp only [mapEntries]
@[simp] theorem mapEntries_rtu (f : Port → RosterEntry → RosterEntry) : (s.mapEntries f).rtu = s.rtu := by
  simp only [mapEntries]
@[simp] theorem mapEntries_ctu (f : Port → RosterEntry → RosterEntry) : (s.mapEntries f).ctu = s.ctu := by
  simp only [mapEntries]
@[simp] theorem mapEntries_screenStaged (f : Port → RosterEntry → RosterEntry) : (s.mapEntries f).screenStaged = s.screenStaged := by
  simp only [mapEntries]
@[simp] theorem mapEntries_screenActive (f : Port → RosterEntry → RosterEntry) : (s.mapEntries f).screenActive = s.screenActive := by
  simp only [mapEntries]
@[simp] theorem mapEntries_ssc (f : Port → RosterEntry → RosterEntry) : (s.mapEntries f).ssc = s.ssc := by
  simp only [mapEntries]
@[simp] theorem mapEntries_links (f : Port → RosterEntry → RosterEntry) : (s.mapEntries f).links = s.links := by
  simp only [mapEntries]
@[simp] theorem mapEntries_cli (f : Port → RosterEntry → RosterEntry) : (s.mapEntries f).cli = s.cli := by
  simp only [mapEntries]
@[simp] theorem mapEntries_mga (f : Port → RosterEntry → RosterEntry) : (s.mapEntries f).mga = s.mga := by
  simp only [mapEntries]
@[simp] theorem mapEntries_settings (f : Port → RosterEntry → RosterEntry) : (s.mapEntries f).settings = s.settings := by
  simp only [mapEntries]
@[simp] theorem mapEntries_log (f : Port → RosterEntry → RosterEntry) : (s.mapEntries f).log = s.log := by
  simp only [mapEntries]
@[simp] theorem mapEntries_ps (f : Port → RosterEntry → RosterEntry) : (s.mapEntries f).ps = s.ps := by
  simp only [mapEntries]
@[simp] theorem mapEntries_pending (f : Port → RosterEntry → RosterEntry) : (s.mapEntries f).pending = s.pending := by
  simp only [mapEntries]
@[simp] theorem mapEntries_link (f : Port → RosterEntry → RosterEntry) (q : Port) : (s.mapEntries f).link q = s.link q := by
  simp only [link, mapEntries]
@[simp] theorem mapEntries_cport (f : Port → RosterEntry → RosterEntry) (q : Port) : (s.mapEntries f).cport q = s.cport q := by
  simp only [cport, mapEntries]

/-! ### updLink -/

@[simp] theorem updLink_lines (p : Port) (f : Link → Link) : (s.updLink p f).lines = s.lines := rfl
@[simp] theorem updLink_mode (p : Port) (f : Link → Link) : (s.updLink p f).mode = s.mode := rfl
@[simp] theorem updLink_roster (p : Port) (f : Link → Link) : (s.updLink p f).roster = s.roster := rfl
@[simp] theorem updLink_policyStaged (p : Port) (f : Link → Link) : (s.updLink p f).policyStaged = s.policyStaged := rfl
@[simp] theorem updLink_policyActive (p : Port) (f : Link → Link) : (s.updLink p f).policyActive = s.policyActive := rfl
@[simp] theorem updLink_rsq (p : Port) (f : Link → Link) : (s.updLink p f).rsq = s.rsq := rfl
@[simp] theorem updLink_bau (p : Port) (f : Link → Link) : (s.updLink p f).bau = s.bau := rfl
@[simp] theorem updLink_rebalStaged (p : Port) (f : Link → Link) : (s.updLink p f).rebalStaged = s.rebalStaged := rfl
@[simp] theorem updLink_rebalActive (p : Port) (f : Link → Link) : (s.updLink p f).rebalActive = s.rebalActive := rfl
@[simp] theorem updLink_rtu (p : Port) (f : Link → Link) : (s.updLink p f).rtu = s.rtu := rfl
@[simp] theorem updLink_ctu (p : Port) (f : Link → Link) : (s.updLink p f).ctu = s.ctu := rfl
@[simp] theorem updLink_screenStaged (p : Port) (f : Link → Link) : (s.updLink p f).screenStaged = s.screenStaged := rfl
@[simp] theorem updLink_screenActive (p : Port) (f : Link → Link) : (s.updLink p f).screenActive = s.screenActive := rfl
@[simp] theorem updLink_ssc (p : Port) (f : Link → Link) : (s.updLink p f).ssc = s.ssc := rfl
@[simp] theorem updLink_links (p : Port) (f : Link → Link) : (s.updLink p f).links = s.links.set p.val (f (s.link p)) := rfl
@[simp] theorem updLink_cli (p : Port) (f : Link → Link) : (s.updLink p f).cli = s.cli := rfl
@[simp] theorem updLink_mga (p : Port) (f : Link → Link) : (s.updLink p f).mga = s.mga := rfl
@[simp] theorem updLink_settings (p : Port) (f : Link → Link) : (s.updLink p f).settings = s.settings := rfl
@[simp] theorem updLink_log (p : Port) (f : Link → Link) : (s.updLink p f).log = s.log := rfl
@[simp] theorem updLink_ps (p : Port) (f : Link → Link) : (s.updLink p f).ps = s.ps := rfl
@[simp] theorem updLink_pending (p : Port) (f : Link → Link) : (s.updLink p f).pending = s.pending := rfl
@[simp] theorem updLink_entry (p : Port) (f : Link → Link) (q : Port) : (s.updLink p f).entry q = s.entry q := rfl
@[simp] theorem updLink_cport (p : Port) (f : Link → Link) (q : Port) : (s.updLink p f).cport q = s.cport q := rfl

/-! ### mapLinks -/

@[simp] theorem mapLinks_lines (f : Port → Link → Link) : (s.mapLinks f).lines = s.lines := by
  simp only [mapLinks]
@[simp] theorem mapLinks_mode (f : Port → Link → Link) : (s.mapLinks f).mode = s.mode := by
  simp only [mapLinks]
@[simp] theorem mapLinks_roster (f : Port → Link → Link) : (s.mapLinks f).roster = s.roster := by
  simp only [mapLinks]
@[simp] theorem mapLinks_policyStaged (f : Port → Link → Link) : (s.mapLinks f).policyStaged = s.policyStaged := by
  simp only [mapLinks]
@[simp] theorem mapLinks_policyActive (f : Port → Link → Link) : (s.mapLinks f).policyActive = s.policyActive := by
  simp only [mapLinks]
@[simp] theorem mapLinks_rsq (f : Port → Link → Link) : (s.mapLinks f).rsq = s.rsq := by
  simp only [mapLinks]
@[simp] theorem mapLinks_bau (f : Port → Link → Link) : (s.mapLinks f).bau = s.bau := by
  simp only [mapLinks]
@[simp] theorem mapLinks_rebalStaged (f : Port → Link → Link) : (s.mapLinks f).rebalStaged = s.rebalStaged := by
  simp only [mapLinks]
@[simp] theorem mapLinks_rebalActive (f : Port → Link → Link) : (s.mapLinks f).rebalActive = s.rebalActive := by
  simp only [mapLinks]
@[simp] theorem mapLinks_rtu (f : Port → Link → Link) : (s.mapLinks f).rtu = s.rtu := by
  simp only [mapLinks]
@[simp] theorem mapLinks_ctu (f : Port → Link → Link) : (s.mapLinks f).ctu = s.ctu := by
  simp only [mapLinks]
@[simp] theorem mapLinks_screenStaged (f : Port → Link → Link) : (s.mapLinks f).screenStaged = s.screenStaged := by
  simp only [mapLinks]
@[simp] theorem mapLinks_screenActive (f : Port → Link → Link) : (s.mapLinks f).screenActive = s.screenActive := by
  simp only [mapLinks]
@[simp] theorem mapLinks_ssc (f : Port → Link → Link) : (s.mapLinks f).ssc = s.ssc := by
  simp only [mapLinks]
@[simp] theorem mapLinks_links (f : Port → Link → Link) : (s.mapLinks f).links = Vector.ofFn (fun p => f p (s.link p)) := by
  simp only [mapLinks]
@[simp] theorem mapLinks_cli (f : Port → Link → Link) : (s.mapLinks f).cli = s.cli := by
  simp only [mapLinks]
@[simp] theorem mapLinks_mga (f : Port → Link → Link) : (s.mapLinks f).mga = s.mga := by
  simp only [mapLinks]
@[simp] theorem mapLinks_settings (f : Port → Link → Link) : (s.mapLinks f).settings = s.settings := by
  simp only [mapLinks]
@[simp] theorem mapLinks_log (f : Port → Link → Link) : (s.mapLinks f).log = s.log := by
  simp only [mapLinks]
@[simp] theorem mapLinks_ps (f : Port → Link → Link) : (s.mapLinks f).ps = s.ps := by
  simp only [mapLinks]
@[simp] theorem mapLinks_pending (f : Port → Link → Link) : (s.mapLinks f).pending = s.pending := by
  simp only [mapLinks]
@[simp] theorem mapLinks_entry (f : Port → Link → Link) (q : Port) : (s.mapLinks f).entry q = s.entry q := by
  simp only [entry, mapLinks]
@[simp] theorem mapLinks_cport (f : Port → Link → Link) (q : Port) : (s.mapLinks f).cport q = s.cport q := by
  simp only [cport, mapLinks]

/-! ### updCtu -/

@[simp] theorem updCtu_lines (f : Carrier → Carrier) : (s.updCtu f).lines = s.lines := rfl
@[simp] theorem updCtu_mode (f : Carrier → Carrier) : (s.updCtu f).mode = s.mode := rfl
@[simp] theorem updCtu_roster (f : Carrier → Carrier) : (s.updCtu f).roster = s.roster := rfl
@[simp] theorem updCtu_policyStaged (f : Carrier → Carrier) : (s.updCtu f).policyStaged = s.policyStaged := rfl
@[simp] theorem updCtu_policyActive (f : Carrier → Carrier) : (s.updCtu f).policyActive = s.policyActive := rfl
@[simp] theorem updCtu_rsq (f : Carrier → Carrier) : (s.updCtu f).rsq = s.rsq := rfl
@[simp] theorem updCtu_bau (f : Carrier → Carrier) : (s.updCtu f).bau = s.bau := rfl
@[simp] theorem updCtu_rebalStaged (f : Carrier → Carrier) : (s.updCtu f).rebalStaged = s.rebalStaged := rfl
@[simp] theorem updCtu_rebalActive (f : Carrier → Carrier) : (s.updCtu f).rebalActive = s.rebalActive := rfl
@[simp] theorem updCtu_rtu (f : Carrier → Carrier) : (s.updCtu f).rtu = s.rtu := rfl
@[simp] theorem updCtu_ctu (f : Carrier → Carrier) : (s.updCtu f).ctu = f s.ctu := rfl
@[simp] theorem updCtu_screenStaged (f : Carrier → Carrier) : (s.updCtu f).screenStaged = s.screenStaged := rfl
@[simp] theorem updCtu_screenActive (f : Carrier → Carrier) : (s.updCtu f).screenActive = s.screenActive := rfl
@[simp] theorem updCtu_ssc (f : Carrier → Carrier) : (s.updCtu f).ssc = s.ssc := rfl
@[simp] theorem updCtu_links (f : Carrier → Carrier) : (s.updCtu f).links = s.links := rfl
@[simp] theorem updCtu_cli (f : Carrier → Carrier) : (s.updCtu f).cli = s.cli := rfl
@[simp] theorem updCtu_mga (f : Carrier → Carrier) : (s.updCtu f).mga = s.mga := rfl
@[simp] theorem updCtu_settings (f : Carrier → Carrier) : (s.updCtu f).settings = s.settings := rfl
@[simp] theorem updCtu_log (f : Carrier → Carrier) : (s.updCtu f).log = s.log := rfl
@[simp] theorem updCtu_ps (f : Carrier → Carrier) : (s.updCtu f).ps = s.ps := rfl
@[simp] theorem updCtu_pending (f : Carrier → Carrier) : (s.updCtu f).pending = s.pending := rfl
@[simp] theorem updCtu_entry (f : Carrier → Carrier) (q : Port) : (s.updCtu f).entry q = s.entry q := rfl
@[simp] theorem updCtu_link (f : Carrier → Carrier) (q : Port) : (s.updCtu f).link q = s.link q := rfl

/-! ### updCport -/

@[simp] theorem updCport_lines (p : Port) (f : CarrierPort → CarrierPort) : (s.updCport p f).lines = s.lines := rfl
@[simp] theorem updCport_mode (p : Port) (f : CarrierPort → CarrierPort) : (s.updCport p f).mode = s.mode := rfl
@[simp] theorem updCport_roster (p : Port) (f : CarrierPort → CarrierPort) : (s.updCport p f).roster = s.roster := rfl
@[simp] theorem updCport_policyStaged (p : Port) (f : CarrierPort → CarrierPort) : (s.updCport p f).policyStaged = s.policyStaged := rfl
@[simp] theorem updCport_policyActive (p : Port) (f : CarrierPort → CarrierPort) : (s.updCport p f).policyActive = s.policyActive := rfl
@[simp] theorem updCport_rsq (p : Port) (f : CarrierPort → CarrierPort) : (s.updCport p f).rsq = s.rsq := rfl
@[simp] theorem updCport_bau (p : Port) (f : CarrierPort → CarrierPort) : (s.updCport p f).bau = s.bau := rfl
@[simp] theorem updCport_rebalStaged (p : Port) (f : CarrierPort → CarrierPort) : (s.updCport p f).rebalStaged = s.rebalStaged := rfl
@[simp] theorem updCport_rebalActive (p : Port) (f : CarrierPort → CarrierPort) : (s.updCport p f).rebalActive = s.rebalActive := rfl
@[simp] theorem updCport_rtu (p : Port) (f : CarrierPort → CarrierPort) : (s.updCport p f).rtu = s.rtu := rfl
@[simp] theorem updCport_ctu (p : Port) (f : CarrierPort → CarrierPort) : (s.updCport p f).ctu = { s.ctu with ports := s.ctu.ports.set p.val (f (s.cport p)) } := rfl
@[simp] theorem updCport_screenStaged (p : Port) (f : CarrierPort → CarrierPort) : (s.updCport p f).screenStaged = s.screenStaged := rfl
@[simp] theorem updCport_screenActive (p : Port) (f : CarrierPort → CarrierPort) : (s.updCport p f).screenActive = s.screenActive := rfl
@[simp] theorem updCport_ssc (p : Port) (f : CarrierPort → CarrierPort) : (s.updCport p f).ssc = s.ssc := rfl
@[simp] theorem updCport_links (p : Port) (f : CarrierPort → CarrierPort) : (s.updCport p f).links = s.links := rfl
@[simp] theorem updCport_cli (p : Port) (f : CarrierPort → CarrierPort) : (s.updCport p f).cli = s.cli := rfl
@[simp] theorem updCport_mga (p : Port) (f : CarrierPort → CarrierPort) : (s.updCport p f).mga = s.mga := rfl
@[simp] theorem updCport_settings (p : Port) (f : CarrierPort → CarrierPort) : (s.updCport p f).settings = s.settings := rfl
@[simp] theorem updCport_log (p : Port) (f : CarrierPort → CarrierPort) : (s.updCport p f).log = s.log := rfl
@[simp] theorem updCport_ps (p : Port) (f : CarrierPort → CarrierPort) : (s.updCport p f).ps = s.ps := rfl
@[simp] theorem updCport_pending (p : Port) (f : CarrierPort → CarrierPort) : (s.updCport p f).pending = s.pending := rfl
@[simp] theorem updCport_entry (p : Port) (f : CarrierPort → CarrierPort) (q : Port) : (s.updCport p f).entry q = s.entry q := rfl
@[simp] theorem updCport_link (p : Port) (f : CarrierPort → CarrierPort) (q : Port) : (s.updCport p f).link q = s.link q := rfl

/-! ### mapCports -/

@[simp] theorem mapCports_lines (f : Port → CarrierPort → CarrierPort) : (s.mapCports f).lines = s.lines := by
  simp only [mapCports, updCtu]
@[simp] theorem mapCports_mode (f : Port → CarrierPort → CarrierPort) : (s.mapCports f).mode = s.mode := by
  simp only [mapCports, updCtu]
@[simp] theorem mapCports_roster (f : Port → CarrierPort → CarrierPort) : (s.mapCports f).roster = s.roster := by
  simp only [mapCports, updCtu]
@[simp] theorem mapCports_policyStaged (f : Port → CarrierPort → CarrierPort) : (s.mapCports f).policyStaged = s.policyStaged := by
  simp only [mapCports, updCtu]
@[simp] theorem mapCports_policyActive (f : Port → CarrierPort → CarrierPort) : (s.mapCports f).policyActive = s.policyActive := by
  simp only [mapCports, updCtu]
@[simp] theorem mapCports_rsq (f : Port → CarrierPort → CarrierPort) : (s.mapCports f).rsq = s.rsq := by
  simp only [mapCports, updCtu]
@[simp] theorem mapCports_bau (f : Port → CarrierPort → CarrierPort) : (s.mapCports f).bau = s.bau := by
  simp only [mapCports, updCtu]
@[simp] theorem mapCports_rebalStaged (f : Port → CarrierPort → CarrierPort) : (s.mapCports f).rebalStaged = s.rebalStaged := by
  simp only [mapCports, updCtu]
@[simp] theorem mapCports_rebalActive (f : Port → CarrierPort → CarrierPort) : (s.mapCports f).rebalActive = s.rebalActive := by
  simp only [mapCports, updCtu]
@[simp] theorem mapCports_rtu (f : Port → CarrierPort → CarrierPort) : (s.mapCports f).rtu = s.rtu := by
  simp only [mapCports, updCtu]
@[simp] theorem mapCports_ctu (f : Port → CarrierPort → CarrierPort) : (s.mapCports f).ctu = { s.ctu with ports := Vector.ofFn (fun p => f p (s.cport p)) } := by
  simp only [mapCports, updCtu]
@[simp] theorem mapCports_screenStaged (f : Port → CarrierPort → CarrierPort) : (s.mapCports f).screenStaged = s.screenStaged := by
  simp only [mapCports, updCtu]
@[simp] theorem mapCports_screenActive (f : Port → CarrierPort → CarrierPort) : (s.mapCports f).screenActive = s.screenActive := by
  simp only [mapCports, updCtu]
@[simp] theorem mapCports_ssc (f : Port → CarrierPort → CarrierPort) : (s.mapCports f).ssc = s.ssc := by
  simp only [mapCports, updCtu]
@[simp] theorem mapCports_links (f : Port → CarrierPort → CarrierPort) : (s.mapCports f).links = s.links := by
  simp only [mapCports, updCtu]
@[simp] theorem mapCports_cli (f : Port → CarrierPort → CarrierPort) : (s.mapCports f).cli = s.cli := by
  simp only [mapCports, updCtu]
@[simp] theorem mapCports_mga (f : Port → CarrierPort → CarrierPort) : (s.mapCports f).mga = s.mga := by
  simp only [mapCports, updCtu]
@[simp] theorem mapCports_settings (f : Port → CarrierPort → CarrierPort) : (s.mapCports f).settings = s.settings := by
  simp only [mapCports, updCtu]
@[simp] theorem mapCports_log (f : Port → CarrierPort → CarrierPort) : (s.mapCports f).log = s.log := by
  simp only [mapCports, updCtu]
@[simp] theorem mapCports_ps (f : Port → CarrierPort → CarrierPort) : (s.mapCports f).ps = s.ps := by
  simp only [mapCports, updCtu]
@[simp] theorem mapCports_pending (f : Port → CarrierPort → CarrierPort) : (s.mapCports f).pending = s.pending := by
  simp only [mapCports, updCtu]
@[simp] theorem mapCports_entry (f : Port → CarrierPort → CarrierPort) (q : Port) : (s.mapCports f).entry q = s.entry q := by
  simp only [entry, mapCports, updCtu]
@[simp] theorem mapCports_link (f : Port → CarrierPort → CarrierPort) (q : Port) : (s.mapCports f).link q = s.link q := by
  simp only [link, mapCports, updCtu]

/-! ### updRsq -/

@[simp] theorem updRsq_lines (f : Sequencer → Sequencer) : (s.updRsq f).lines = s.lines := rfl
@[simp] theorem updRsq_mode (f : Sequencer → Sequencer) : (s.updRsq f).mode = s.mode := rfl
@[simp] theorem updRsq_roster (f : Sequencer → Sequencer) : (s.updRsq f).roster = s.roster := rfl
@[simp] theorem updRsq_policyStaged (f : Sequencer → Sequencer) : (s.updRsq f).policyStaged = s.policyStaged := rfl
@[simp] theorem updRsq_policyActive (f : Sequencer → Sequencer) : (s.updRsq f).policyActive = s.policyActive := rfl
@[simp] theorem updRsq_rsq (f : Sequencer → Sequencer) : (s.updRsq f).rsq = f s.rsq := rfl
@[simp] theorem updRsq_bau (f : Sequencer → Sequencer) : (s.updRsq f).bau = s.bau := rfl
@[simp] theorem updRsq_rebalStaged (f : Sequencer → Sequencer) : (s.updRsq f).rebalStaged = s.rebalStaged := rfl
@[simp] theorem updRsq_rebalActive (f : Sequencer → Sequencer) : (s.updRsq f).rebalActive = s.rebalActive := rfl
@[simp] theorem updRsq_rtu (f : Sequencer → Sequencer) : (s.updRsq f).rtu = s.rtu := rfl
@[simp] theorem updRsq_ctu (f : Sequencer → Sequencer) : (s.updRsq f).ctu = s.ctu := rfl
@[simp] theorem updRsq_screenStaged (f : Sequencer → Sequencer) : (s.updRsq f).screenStaged = s.screenStaged := rfl
@[simp] theorem updRsq_screenActive (f : Sequencer → Sequencer) : (s.updRsq f).screenActive = s.screenActive := rfl
@[simp] theorem updRsq_ssc (f : Sequencer → Sequencer) : (s.updRsq f).ssc = s.ssc := rfl
@[simp] theorem updRsq_links (f : Sequencer → Sequencer) : (s.updRsq f).links = s.links := rfl
@[simp] theorem updRsq_cli (f : Sequencer → Sequencer) : (s.updRsq f).cli = s.cli := rfl
@[simp] theorem updRsq_mga (f : Sequencer → Sequencer) : (s.updRsq f).mga = s.mga := rfl
@[simp] theorem updRsq_settings (f : Sequencer → Sequencer) : (s.updRsq f).settings = s.settings := rfl
@[simp] theorem updRsq_log (f : Sequencer → Sequencer) : (s.updRsq f).log = s.log := rfl
@[simp] theorem updRsq_ps (f : Sequencer → Sequencer) : (s.updRsq f).ps = s.ps := rfl
@[simp] theorem updRsq_pending (f : Sequencer → Sequencer) : (s.updRsq f).pending = s.pending := rfl
@[simp] theorem updRsq_entry (f : Sequencer → Sequencer) (q : Port) : (s.updRsq f).entry q = s.entry q := rfl
@[simp] theorem updRsq_link (f : Sequencer → Sequencer) (q : Port) : (s.updRsq f).link q = s.link q := rfl
@[simp] theorem updRsq_cport (f : Sequencer → Sequencer) (q : Port) : (s.updRsq f).cport q = s.cport q := rfl

/-! ### updBau -/

@[simp] theorem updBau_lines (f : Bypass → Bypass) : (s.updBau f).lines = s.lines := rfl
@[simp] theorem updBau_mode (f : Bypass → Bypass) : (s.updBau f).mode = s.mode := rfl
@[simp] theorem updBau_roster (f : Bypass → Bypass) : (s.updBau f).roster = s.roster := rfl
@[simp] theorem updBau_policyStaged (f : Bypass → Bypass) : (s.updBau f).policyStaged = s.policyStaged := rfl
@[simp] theorem updBau_policyActive (f : Bypass → Bypass) : (s.updBau f).policyActive = s.policyActive := rfl
@[simp] theorem updBau_rsq (f : Bypass → Bypass) : (s.updBau f).rsq = s.rsq := rfl
@[simp] theorem updBau_bau (f : Bypass → Bypass) : (s.updBau f).bau = f s.bau := rfl
@[simp] theorem updBau_rebalStaged (f : Bypass → Bypass) : (s.updBau f).rebalStaged = s.rebalStaged := rfl
@[simp] theorem updBau_rebalActive (f : Bypass → Bypass) : (s.updBau f).rebalActive = s.rebalActive := rfl
@[simp] theorem updBau_rtu (f : Bypass → Bypass) : (s.updBau f).rtu = s.rtu := rfl
@[simp] theorem updBau_ctu (f : Bypass → Bypass) : (s.updBau f).ctu = s.ctu := rfl
@[simp] theorem updBau_screenStaged (f : Bypass → Bypass) : (s.updBau f).screenStaged = s.screenStaged := rfl
@[simp] theorem updBau_screenActive (f : Bypass → Bypass) : (s.updBau f).screenActive = s.screenActive := rfl
@[simp] theorem updBau_ssc (f : Bypass → Bypass) : (s.updBau f).ssc = s.ssc := rfl
@[simp] theorem updBau_links (f : Bypass → Bypass) : (s.updBau f).links = s.links := rfl
@[simp] theorem updBau_cli (f : Bypass → Bypass) : (s.updBau f).cli = s.cli := rfl
@[simp] theorem updBau_mga (f : Bypass → Bypass) : (s.updBau f).mga = s.mga := rfl
@[simp] theorem updBau_settings (f : Bypass → Bypass) : (s.updBau f).settings = s.settings := rfl
@[simp] theorem updBau_log (f : Bypass → Bypass) : (s.updBau f).log = s.log := rfl
@[simp] theorem updBau_ps (f : Bypass → Bypass) : (s.updBau f).ps = s.ps := rfl
@[simp] theorem updBau_pending (f : Bypass → Bypass) : (s.updBau f).pending = s.pending := rfl
@[simp] theorem updBau_entry (f : Bypass → Bypass) (q : Port) : (s.updBau f).entry q = s.entry q := rfl
@[simp] theorem updBau_link (f : Bypass → Bypass) (q : Port) : (s.updBau f).link q = s.link q := rfl
@[simp] theorem updBau_cport (f : Bypass → Bypass) (q : Port) : (s.updBau f).cport q = s.cport q := rfl

/-! ### updRtu -/

@[simp] theorem updRtu_lines (f : Transform → Transform) : (s.updRtu f).lines = s.lines := rfl
@[simp] theorem updRtu_mode (f : Transform → Transform) : (s.updRtu f).mode = s.mode := rfl
@[simp] theorem updRtu_roster (f : Transform → Transform) : (s.updRtu f).roster = s.roster := rfl
@[simp] theorem updRtu_policyStaged (f : Transform → Transform) : (s.updRtu f).policyStaged = s.policyStaged := rfl
@[simp] theorem updRtu_policyActive (f : Transform → Transform) : (s.updRtu f).policyActive = s.policyActive := rfl
@[simp] theorem updRtu_rsq (f : Transform → Transform) : (s.updRtu f).rsq = s.rsq := rfl
@[simp] theorem updRtu_bau (f : Transform → Transform) : (s.updRtu f).bau = s.bau := rfl
@[simp] theorem updRtu_rebalStaged (f : Transform → Transform) : (s.updRtu f).rebalStaged = s.rebalStaged := rfl
@[simp] theorem updRtu_rebalActive (f : Transform → Transform) : (s.updRtu f).rebalActive = s.rebalActive := rfl
@[simp] theorem updRtu_rtu (f : Transform → Transform) : (s.updRtu f).rtu = f s.rtu := rfl
@[simp] theorem updRtu_ctu (f : Transform → Transform) : (s.updRtu f).ctu = s.ctu := rfl
@[simp] theorem updRtu_screenStaged (f : Transform → Transform) : (s.updRtu f).screenStaged = s.screenStaged := rfl
@[simp] theorem updRtu_screenActive (f : Transform → Transform) : (s.updRtu f).screenActive = s.screenActive := rfl
@[simp] theorem updRtu_ssc (f : Transform → Transform) : (s.updRtu f).ssc = s.ssc := rfl
@[simp] theorem updRtu_links (f : Transform → Transform) : (s.updRtu f).links = s.links := rfl
@[simp] theorem updRtu_cli (f : Transform → Transform) : (s.updRtu f).cli = s.cli := rfl
@[simp] theorem updRtu_mga (f : Transform → Transform) : (s.updRtu f).mga = s.mga := rfl
@[simp] theorem updRtu_settings (f : Transform → Transform) : (s.updRtu f).settings = s.settings := rfl
@[simp] theorem updRtu_log (f : Transform → Transform) : (s.updRtu f).log = s.log := rfl
@[simp] theorem updRtu_ps (f : Transform → Transform) : (s.updRtu f).ps = s.ps := rfl
@[simp] theorem updRtu_pending (f : Transform → Transform) : (s.updRtu f).pending = s.pending := rfl
@[simp] theorem updRtu_entry (f : Transform → Transform) (q : Port) : (s.updRtu f).entry q = s.entry q := rfl
@[simp] theorem updRtu_link (f : Transform → Transform) (q : Port) : (s.updRtu f).link q = s.link q := rfl
@[simp] theorem updRtu_cport (f : Transform → Transform) (q : Port) : (s.updRtu f).cport q = s.cport q := rfl

/-! ### updSsc -/

@[simp] theorem updSsc_lines (f : Screen → Screen) : (s.updSsc f).lines = s.lines := rfl
@[simp] theorem updSsc_mode (f : Screen → Screen) : (s.updSsc f).mode = s.mode := rfl
@[simp] theorem updSsc_roster (f : Screen → Screen) : (s.updSsc f).roster = s.roster := rfl
@[simp] theorem updSsc_policyStaged (f : Screen → Screen) : (s.updSsc f).policyStaged = s.policyStaged := rfl
@[simp] theorem updSsc_policyActive (f : Screen → Screen) : (s.updSsc f).policyActive = s.policyActive := rfl
@[simp] theorem updSsc_rsq (f : Screen → Screen) : (s.updSsc f).rsq = s.rsq := rfl
@[simp] theorem updSsc_bau (f : Screen → Screen) : (s.updSsc f).bau = s.bau := rfl
@[simp] theorem updSsc_rebalStaged (f : Screen → Screen) : (s.updSsc f).rebalStaged = s.rebalStaged := rfl
@[simp] theorem updSsc_rebalActive (f : Screen → Screen) : (s.updSsc f).rebalActive = s.rebalActive := rfl
@[simp] theorem updSsc_rtu (f : Screen → Screen) : (s.updSsc f).rtu = s.rtu := rfl
@[simp] theorem updSsc_ctu (f : Screen → Screen) : (s.updSsc f).ctu = s.ctu := rfl
@[simp] theorem updSsc_screenStaged (f : Screen → Screen) : (s.updSsc f).screenStaged = s.screenStaged := rfl
@[simp] theorem updSsc_screenActive (f : Screen → Screen) : (s.updSsc f).screenActive = s.screenActive := rfl
@[simp] theorem updSsc_ssc (f : Screen → Screen) : (s.updSsc f).ssc = f s.ssc := rfl
@[simp] theorem updSsc_links (f : Screen → Screen) : (s.updSsc f).links = s.links := rfl
@[simp] theorem updSsc_cli (f : Screen → Screen) : (s.updSsc f).cli = s.cli := rfl
@[simp] theorem updSsc_mga (f : Screen → Screen) : (s.updSsc f).mga = s.mga := rfl
@[simp] theorem updSsc_settings (f : Screen → Screen) : (s.updSsc f).settings = s.settings := rfl
@[simp] theorem updSsc_log (f : Screen → Screen) : (s.updSsc f).log = s.log := rfl
@[simp] theorem updSsc_ps (f : Screen → Screen) : (s.updSsc f).ps = s.ps := rfl
@[simp] theorem updSsc_pending (f : Screen → Screen) : (s.updSsc f).pending = s.pending := rfl
@[simp] theorem updSsc_entry (f : Screen → Screen) (q : Port) : (s.updSsc f).entry q = s.entry q := rfl
@[simp] theorem updSsc_link (f : Screen → Screen) (q : Port) : (s.updSsc f).link q = s.link q := rfl
@[simp] theorem updSsc_cport (f : Screen → Screen) (q : Port) : (s.updSsc f).cport q = s.cport q := rfl

/-! ### updCli -/

@[simp] theorem updCli_lines (f : Control → Control) : (s.updCli f).lines = s.lines := rfl
@[simp] theorem updCli_mode (f : Control → Control) : (s.updCli f).mode = s.mode := rfl
@[simp] theorem updCli_roster (f : Control → Control) : (s.updCli f).roster = s.roster := rfl
@[simp] theorem updCli_policyStaged (f : Control → Control) : (s.updCli f).policyStaged = s.policyStaged := rfl
@[simp] theorem updCli_policyActive (f : Control → Control) : (s.updCli f).policyActive = s.policyActive := rfl
@[simp] theorem updCli_rsq (f : Control → Control) : (s.updCli f).rsq = s.rsq := rfl
@[simp] theorem updCli_bau (f : Control → Control) : (s.updCli f).bau = s.bau := rfl
@[simp] theorem updCli_rebalStaged (f : Control → Control) : (s.updCli f).rebalStaged = s.rebalStaged := rfl
@[simp] theorem updCli_rebalActive (f : Control → Control) : (s.updCli f).rebalActive = s.rebalActive := rfl
@[simp] theorem updCli_rtu (f : Control → Control) : (s.updCli f).rtu = s.rtu := rfl
@[simp] theorem updCli_ctu (f : Control → Control) : (s.updCli f).ctu = s.ctu := rfl
@[simp] theorem updCli_screenStaged (f : Control → Control) : (s.updCli f).screenStaged = s.screenStaged := rfl
@[simp] theorem updCli_screenActive (f : Control → Control) : (s.updCli f).screenActive = s.screenActive := rfl
@[simp] theorem updCli_ssc (f : Control → Control) : (s.updCli f).ssc = s.ssc := rfl
@[simp] theorem updCli_links (f : Control → Control) : (s.updCli f).links = s.links := rfl
@[simp] theorem updCli_cli (f : Control → Control) : (s.updCli f).cli = f s.cli := rfl
@[simp] theorem updCli_mga (f : Control → Control) : (s.updCli f).mga = s.mga := rfl
@[simp] theorem updCli_settings (f : Control → Control) : (s.updCli f).settings = s.settings := rfl
@[simp] theorem updCli_log (f : Control → Control) : (s.updCli f).log = s.log := rfl
@[simp] theorem updCli_ps (f : Control → Control) : (s.updCli f).ps = s.ps := rfl
@[simp] theorem updCli_pending (f : Control → Control) : (s.updCli f).pending = s.pending := rfl
@[simp] theorem updCli_entry (f : Control → Control) (q : Port) : (s.updCli f).entry q = s.entry q := rfl
@[simp] theorem updCli_link (f : Control → Control) (q : Port) : (s.updCli f).link q = s.link q := rfl
@[simp] theorem updCli_cport (f : Control → Control) (q : Port) : (s.updCli f).cport q = s.cport q := rfl

/-! ### updMga -/

@[simp] theorem updMga_lines (f : Agent → Agent) : (s.updMga f).lines = s.lines := rfl
@[simp] theorem updMga_mode (f : Agent → Agent) : (s.updMga f).mode = s.mode := rfl
@[simp] theorem updMga_roster (f : Agent → Agent) : (s.updMga f).roster = s.roster := rfl
@[simp] theorem updMga_policyStaged (f : Agent → Agent) : (s.updMga f).policyStaged = s.policyStaged := rfl
@[simp] theorem updMga_policyActive (f : Agent → Agent) : (s.updMga f).policyActive = s.policyActive := rfl
@[simp] theorem updMga_rsq (f : Agent → Agent) : (s.updMga f).rsq = s.rsq := rfl
@[simp] theorem updMga_bau (f : Agent → Agent) : (s.updMga f).bau = s.bau := rfl
@[simp] theorem updMga_rebalStaged (f : Agent → Agent) : (s.updMga f).rebalStaged = s.rebalStaged := rfl
@[simp] theorem updMga_rebalActive (f : Agent → Agent) : (s.updMga f).rebalActive = s.rebalActive := rfl
@[simp] theorem updMga_rtu (f : Agent → Agent) : (s.updMga f).rtu = s.rtu := rfl
@[simp] theorem updMga_ctu (f : Agent → Agent) : (s.updMga f).ctu = s.ctu := rfl
@[simp] theorem updMga_screenStaged (f : Agent → Agent) : (s.updMga f).screenStaged = s.screenStaged := rfl
@[simp] theorem updMga_screenActive (f : Agent → Agent) : (s.updMga f).screenActive = s.screenActive := rfl
@[simp] theorem updMga_ssc (f : Agent → Agent) : (s.updMga f).ssc = s.ssc := rfl
@[simp] theorem updMga_links (f : Agent → Agent) : (s.updMga f).links = s.links := rfl
@[simp] theorem updMga_cli (f : Agent → Agent) : (s.updMga f).cli = s.cli := rfl
@[simp] theorem updMga_mga (f : Agent → Agent) : (s.updMga f).mga = f s.mga := rfl
@[simp] theorem updMga_settings (f : Agent → Agent) : (s.updMga f).settings = s.settings := rfl
@[simp] theorem updMga_log (f : Agent → Agent) : (s.updMga f).log = s.log := rfl
@[simp] theorem updMga_ps (f : Agent → Agent) : (s.updMga f).ps = s.ps := rfl
@[simp] theorem updMga_pending (f : Agent → Agent) : (s.updMga f).pending = s.pending := rfl
@[simp] theorem updMga_entry (f : Agent → Agent) (q : Port) : (s.updMga f).entry q = s.entry q := rfl
@[simp] theorem updMga_link (f : Agent → Agent) (q : Port) : (s.updMga f).link q = s.link q := rfl
@[simp] theorem updMga_cport (f : Agent → Agent) (q : Port) : (s.updMga f).cport q = s.cport q := rfl

/-! ### updPs -/

@[simp] theorem updPs_lines (f : PeriodProgress → PeriodProgress) : (s.updPs f).lines = s.lines := rfl
@[simp] theorem updPs_mode (f : PeriodProgress → PeriodProgress) : (s.updPs f).mode = s.mode := rfl
@[simp] theorem updPs_roster (f : PeriodProgress → PeriodProgress) : (s.updPs f).roster = s.roster := rfl
@[simp] theorem updPs_policyStaged (f : PeriodProgress → PeriodProgress) : (s.updPs f).policyStaged = s.policyStaged := rfl
@[simp] theorem updPs_policyActive (f : PeriodProgress → PeriodProgress) : (s.updPs f).policyActive = s.policyActive := rfl
@[simp] theorem updPs_rsq (f : PeriodProgress → PeriodProgress) : (s.updPs f).rsq = s.rsq := rfl
@[simp] theorem updPs_bau (f : PeriodProgress → PeriodProgress) : (s.updPs f).bau = s.bau := rfl
@[simp] theorem updPs_rebalStaged (f : PeriodProgress → PeriodProgress) : (s.updPs f).rebalStaged = s.rebalStaged := rfl
@[simp] theorem updPs_rebalActive (f : PeriodProgress → PeriodProgress) : (s.updPs f).rebalActive = s.rebalActive := rfl
@[simp] theorem updPs_rtu (f : PeriodProgress → PeriodProgress) : (s.updPs f).rtu = s.rtu := rfl
@[simp] theorem updPs_ctu (f : PeriodProgress → PeriodProgress) : (s.updPs f).ctu = s.ctu := rfl
@[simp] theorem updPs_screenStaged (f : PeriodProgress → PeriodProgress) : (s.updPs f).screenStaged = s.screenStaged := rfl
@[simp] theorem updPs_screenActive (f : PeriodProgress → PeriodProgress) : (s.updPs f).screenActive = s.screenActive := rfl
@[simp] theorem updPs_ssc (f : PeriodProgress → PeriodProgress) : (s.updPs f).ssc = s.ssc := rfl
@[simp] theorem updPs_links (f : PeriodProgress → PeriodProgress) : (s.updPs f).links = s.links := rfl
@[simp] theorem updPs_cli (f : PeriodProgress → PeriodProgress) : (s.updPs f).cli = s.cli := rfl
@[simp] theorem updPs_mga (f : PeriodProgress → PeriodProgress) : (s.updPs f).mga = s.mga := rfl
@[simp] theorem updPs_settings (f : PeriodProgress → PeriodProgress) : (s.updPs f).settings = s.settings := rfl
@[simp] theorem updPs_log (f : PeriodProgress → PeriodProgress) : (s.updPs f).log = s.log := rfl
@[simp] theorem updPs_ps (f : PeriodProgress → PeriodProgress) : (s.updPs f).ps = f s.ps := rfl
@[simp] theorem updPs_pending (f : PeriodProgress → PeriodProgress) : (s.updPs f).pending = s.pending := rfl
@[simp] theorem updPs_entry (f : PeriodProgress → PeriodProgress) (q : Port) : (s.updPs f).entry q = s.entry q := rfl
@[simp] theorem updPs_link (f : PeriodProgress → PeriodProgress) (q : Port) : (s.updPs f).link q = s.link q := rfl
@[simp] theorem updPs_cport (f : PeriodProgress → PeriodProgress) (q : Port) : (s.updPs f).cport q = s.cport q := rfl

/-! ### setMode -/

@[simp] theorem setMode_lines (m : Mode) : (s.setMode m).lines = s.lines := rfl
@[simp] theorem setMode_mode (m : Mode) : (s.setMode m).mode = m := rfl
@[simp] theorem setMode_roster (m : Mode) : (s.setMode m).roster = s.roster := rfl
@[simp] theorem setMode_policyStaged (m : Mode) : (s.setMode m).policyStaged = s.policyStaged := rfl
@[simp] theorem setMode_policyActive (m : Mode) : (s.setMode m).policyActive = s.policyActive := rfl
@[simp] theorem setMode_rsq (m : Mode) : (s.setMode m).rsq = s.rsq := rfl
@[simp] theorem setMode_bau (m : Mode) : (s.setMode m).bau = s.bau := rfl
@[simp] theorem setMode_rebalStaged (m : Mode) : (s.setMode m).rebalStaged = s.rebalStaged := rfl
@[simp] theorem setMode_rebalActive (m : Mode) : (s.setMode m).rebalActive = s.rebalActive := rfl
@[simp] theorem setMode_rtu (m : Mode) : (s.setMode m).rtu = s.rtu := rfl
@[simp] theorem setMode_ctu (m : Mode) : (s.setMode m).ctu = s.ctu := rfl
@[simp] theorem setMode_screenStaged (m : Mode) : (s.setMode m).screenStaged = s.screenStaged := rfl
@[simp] theorem setMode_screenActive (m : Mode) : (s.setMode m).screenActive = s.screenActive := rfl
@[simp] theorem setMode_ssc (m : Mode) : (s.setMode m).ssc = s.ssc := rfl
@[simp] theorem setMode_links (m : Mode) : (s.setMode m).links = s.links := rfl
@[simp] theorem setMode_cli (m : Mode) : (s.setMode m).cli = s.cli := rfl
@[simp] theorem setMode_mga (m : Mode) : (s.setMode m).mga = s.mga := rfl
@[simp] theorem setMode_settings (m : Mode) : (s.setMode m).settings = s.settings := rfl
@[simp] theorem setMode_log (m : Mode) : (s.setMode m).log = s.log := rfl
@[simp] theorem setMode_ps (m : Mode) : (s.setMode m).ps = s.ps := rfl
@[simp] theorem setMode_pending (m : Mode) : (s.setMode m).pending = s.pending := rfl
@[simp] theorem setMode_entry (m : Mode) (q : Port) : (s.setMode m).entry q = s.entry q := rfl
@[simp] theorem setMode_link (m : Mode) (q : Port) : (s.setMode m).link q = s.link q := rfl
@[simp] theorem setMode_cport (m : Mode) (q : Port) : (s.setMode m).cport q = s.cport q := rfl

/-! ### setLines -/

@[simp] theorem setLines_lines (l : Lines) : (s.setLines l).lines = l := rfl
@[simp] theorem setLines_mode (l : Lines) : (s.setLines l).mode = s.mode := rfl
@[simp] theorem setLines_roster (l : Lines) : (s.setLines l).roster = s.roster := rfl
@[simp] theorem setLines_policyStaged (l : Lines) : (s.setLines l).policyStaged = s.policyStaged := rfl
@[simp] theorem setLines_policyActive (l : Lines) : (s.setLines l).policyActive = s.policyActive := rfl
@[simp] theorem setLines_rsq (l : Lines) : (s.setLines l).rsq = s.rsq := rfl
@[simp] theorem setLines_bau (l : Lines) : (s.setLines l).bau = s.bau := rfl
@[simp] theorem setLines_rebalStaged (l : Lines) : (s.setLines l).rebalStaged = s.rebalStaged := rfl
@[simp] theorem setLines_rebalActive (l : Lines) : (s.setLines l).rebalActive = s.rebalActive := rfl
@[simp] theorem setLines_rtu (l : Lines) : (s.setLines l).rtu = s.rtu := rfl
@[simp] theorem setLines_ctu (l : Lines) : (s.setLines l).ctu = s.ctu := rfl
@[simp] theorem setLines_screenStaged (l : Lines) : (s.setLines l).screenStaged = s.screenStaged := rfl
@[simp] theorem setLines_screenActive (l : Lines) : (s.setLines l).screenActive = s.screenActive := rfl
@[simp] theorem setLines_ssc (l : Lines) : (s.setLines l).ssc = s.ssc := rfl
@[simp] theorem setLines_links (l : Lines) : (s.setLines l).links = s.links := rfl
@[simp] theorem setLines_cli (l : Lines) : (s.setLines l).cli = s.cli := rfl
@[simp] theorem setLines_mga (l : Lines) : (s.setLines l).mga = s.mga := rfl
@[simp] theorem setLines_settings (l : Lines) : (s.setLines l).settings = s.settings := rfl
@[simp] theorem setLines_log (l : Lines) : (s.setLines l).log = s.log := rfl
@[simp] theorem setLines_ps (l : Lines) : (s.setLines l).ps = s.ps := rfl
@[simp] theorem setLines_pending (l : Lines) : (s.setLines l).pending = s.pending := rfl
@[simp] theorem setLines_entry (l : Lines) (q : Port) : (s.setLines l).entry q = s.entry q := rfl
@[simp] theorem setLines_link (l : Lines) (q : Port) : (s.setLines l).link q = s.link q := rfl
@[simp] theorem setLines_cport (l : Lines) (q : Port) : (s.setLines l).cport q = s.cport q := rfl

/-! ### setLog -/

@[simp] theorem setLog_lines (l : FaultLog) : (s.setLog l).lines = s.lines := rfl
@[simp] theorem setLog_mode (l : FaultLog) : (s.setLog l).mode = s.mode := rfl
@[simp] theorem setLog_roster (l : FaultLog) : (s.setLog l).roster = s.roster := rfl
@[simp] theorem setLog_policyStaged (l : FaultLog) : (s.setLog l).policyStaged = s.policyStaged := rfl
@[simp] theorem setLog_policyActive (l : FaultLog) : (s.setLog l).policyActive = s.policyActive := rfl
@[simp] theorem setLog_rsq (l : FaultLog) : (s.setLog l).rsq = s.rsq := rfl
@[simp] theorem setLog_bau (l : FaultLog) : (s.setLog l).bau = s.bau := rfl
@[simp] theorem setLog_rebalStaged (l : FaultLog) : (s.setLog l).rebalStaged = s.rebalStaged := rfl
@[simp] theorem setLog_rebalActive (l : FaultLog) : (s.setLog l).rebalActive = s.rebalActive := rfl
@[simp] theorem setLog_rtu (l : FaultLog) : (s.setLog l).rtu = s.rtu := rfl
@[simp] theorem setLog_ctu (l : FaultLog) : (s.setLog l).ctu = s.ctu := rfl
@[simp] theorem setLog_screenStaged (l : FaultLog) : (s.setLog l).screenStaged = s.screenStaged := rfl
@[simp] theorem setLog_screenActive (l : FaultLog) : (s.setLog l).screenActive = s.screenActive := rfl
@[simp] theorem setLog_ssc (l : FaultLog) : (s.setLog l).ssc = s.ssc := rfl
@[simp] theorem setLog_links (l : FaultLog) : (s.setLog l).links = s.links := rfl
@[simp] theorem setLog_cli (l : FaultLog) : (s.setLog l).cli = s.cli := rfl
@[simp] theorem setLog_mga (l : FaultLog) : (s.setLog l).mga = s.mga := rfl
@[simp] theorem setLog_settings (l : FaultLog) : (s.setLog l).settings = s.settings := rfl
@[simp] theorem setLog_log (l : FaultLog) : (s.setLog l).log = l := rfl
@[simp] theorem setLog_ps (l : FaultLog) : (s.setLog l).ps = s.ps := rfl
@[simp] theorem setLog_pending (l : FaultLog) : (s.setLog l).pending = s.pending := rfl
@[simp] theorem setLog_entry (l : FaultLog) (q : Port) : (s.setLog l).entry q = s.entry q := rfl
@[simp] theorem setLog_link (l : FaultLog) (q : Port) : (s.setLog l).link q = s.link q := rfl
@[simp] theorem setLog_cport (l : FaultLog) (q : Port) : (s.setLog l).cport q = s.cport q := rfl

/-! ### setSettings -/

@[simp] theorem setSettings_lines (c : Settings) : (s.setSettings c).lines = s.lines := rfl
@[simp] theorem setSettings_mode (c : Settings) : (s.setSettings c).mode = s.mode := rfl
@[simp] theorem setSettings_roster (c : Settings) : (s.setSettings c).roster = s.roster := rfl
@[simp] theorem setSettings_policyStaged (c : Settings) : (s.setSettings c).policyStaged = s.policyStaged := rfl
@[simp] theorem setSettings_policyActive (c : Settings) : (s.setSettings c).policyActive = s.policyActive := rfl
@[simp] theorem setSettings_rsq (c : Settings) : (s.setSettings c).rsq = s.rsq := rfl
@[simp] theorem setSettings_bau (c : Settings) : (s.setSettings c).bau = s.bau := rfl
@[simp] theorem setSettings_rebalStaged (c : Settings) : (s.setSettings c).rebalStaged = s.rebalStaged := rfl
@[simp] theorem setSettings_rebalActive (c : Settings) : (s.setSettings c).rebalActive = s.rebalActive := rfl
@[simp] theorem setSettings_rtu (c : Settings) : (s.setSettings c).rtu = s.rtu := rfl
@[simp] theorem setSettings_ctu (c : Settings) : (s.setSettings c).ctu = s.ctu := rfl
@[simp] theorem setSettings_screenStaged (c : Settings) : (s.setSettings c).screenStaged = s.screenStaged := rfl
@[simp] theorem setSettings_screenActive (c : Settings) : (s.setSettings c).screenActive = s.screenActive := rfl
@[simp] theorem setSettings_ssc (c : Settings) : (s.setSettings c).ssc = s.ssc := rfl
@[simp] theorem setSettings_links (c : Settings) : (s.setSettings c).links = s.links := rfl
@[simp] theorem setSettings_cli (c : Settings) : (s.setSettings c).cli = s.cli := rfl
@[simp] theorem setSettings_mga (c : Settings) : (s.setSettings c).mga = s.mga := rfl
@[simp] theorem setSettings_settings (c : Settings) : (s.setSettings c).settings = c := rfl
@[simp] theorem setSettings_log (c : Settings) : (s.setSettings c).log = s.log := rfl
@[simp] theorem setSettings_ps (c : Settings) : (s.setSettings c).ps = s.ps := rfl
@[simp] theorem setSettings_pending (c : Settings) : (s.setSettings c).pending = s.pending := rfl
@[simp] theorem setSettings_entry (c : Settings) (q : Port) : (s.setSettings c).entry q = s.entry q := rfl
@[simp] theorem setSettings_link (c : Settings) (q : Port) : (s.setSettings c).link q = s.link q := rfl
@[simp] theorem setSettings_cport (c : Settings) (q : Port) : (s.setSettings c).cport q = s.cport q := rfl

/-! ### raise -/

@[simp] theorem raise_lines (f : Flag) : (s.raise f).lines = s.lines := rfl
@[simp] theorem raise_mode (f : Flag) : (s.raise f).mode = s.mode := rfl
@[simp] theorem raise_roster (f : Flag) : (s.raise f).roster = s.roster := rfl
@[simp] theorem raise_policyStaged (f : Flag) : (s.raise f).policyStaged = s.policyStaged := rfl
@[simp] theorem raise_policyActive (f : Flag) : (s.raise f).policyActive = s.policyActive := rfl
@[simp] theorem raise_rsq (f : Flag) : (s.raise f).rsq = s.rsq := rfl
@[simp] theorem raise_bau (f : Flag) : (s.raise f).bau = s.bau := rfl
@[simp] theorem raise_rebalStaged (f : Flag) : (s.raise f).rebalStaged = s.rebalStaged := rfl
@[simp] theorem raise_rebalActive (f : Flag) : (s.raise f).rebalActive = s.rebalActive := rfl
@[simp] theorem raise_rtu (f : Flag) : (s.raise f).rtu = s.rtu := rfl
@[simp] theorem raise_ctu (f : Flag) : (s.raise f).ctu = s.ctu := rfl
@[simp] theorem raise_screenStaged (f : Flag) : (s.raise f).screenStaged = s.screenStaged := rfl
@[simp] theorem raise_screenActive (f : Flag) : (s.raise f).screenActive = s.screenActive := rfl
@[simp] theorem raise_ssc (f : Flag) : (s.raise f).ssc = s.ssc := rfl
@[simp] theorem raise_links (f : Flag) : (s.raise f).links = s.links := rfl
@[simp] theorem raise_cli (f : Flag) : (s.raise f).cli = { s.cli with flags := withFlag s.cli.flags f } := rfl
@[simp] theorem raise_mga (f : Flag) : (s.raise f).mga = s.mga := rfl
@[simp] theorem raise_settings (f : Flag) : (s.raise f).settings = s.settings := rfl
@[simp] theorem raise_log (f : Flag) : (s.raise f).log = s.log := rfl
@[simp] theorem raise_ps (f : Flag) : (s.raise f).ps = s.ps := rfl
@[simp] theorem raise_pending (f : Flag) : (s.raise f).pending = s.pending := rfl
@[simp] theorem raise_entry (f : Flag) (q : Port) : (s.raise f).entry q = s.entry q := rfl
@[simp] theorem raise_link (f : Flag) (q : Port) : (s.raise f).link q = s.link q := rfl
@[simp] theorem raise_cport (f : Flag) (q : Port) : (s.raise f).cport q = s.cport q := rfl

/-! ### One port's records -/

/-- What a changed roster entry reads as, and what the others do. -/
@[simp] theorem updEntry_entry (p : Port) (f : RosterEntry → RosterEntry) (q : Port) :
    (s.updEntry p f).entry q = if p = q then f (s.entry p) else s.entry q := by
  simp only [entry, updEntry, Vector.getElem_set, Fin.val_inj]

/-- Every entry reads as the function of its port gives. -/
@[simp] theorem mapEntries_entry (f : Port → RosterEntry → RosterEntry) (q : Port) :
    (s.mapEntries f).entry q = f q (s.entry q) := by
  simp [entry, mapEntries]

/-- What a changed link record reads as, and what the others do. -/
@[simp] theorem updLink_link (p : Port) (f : Link → Link) (q : Port) :
    (s.updLink p f).link q = if p = q then f (s.link p) else s.link q := by
  simp only [link, updLink, Vector.getElem_set, Fin.val_inj]

/-- Every link record reads as the function of its port gives. -/
@[simp] theorem mapLinks_link (f : Port → Link → Link) (q : Port) : (s.mapLinks f).link q = f q (s.link q) := by
  simp [link, mapLinks]

/-- What a changed carrier record reads as, and what the others do. -/
@[simp] theorem updCport_cport (p : Port) (f : CarrierPort → CarrierPort) (q : Port) :
    (s.updCport p f).cport q = if p = q then f (s.cport p) else s.cport q := by
  simp only [cport, updCport, updCtu, Vector.getElem_set, Fin.val_inj]

/-- Every carrier record reads as the function of its port gives. -/
@[simp] theorem mapCports_cport (f : Port → CarrierPort → CarrierPort) (q : Port) :
    (s.mapCports f).cport q = f q (s.cport q) := by
  simp [cport, mapCports, updCtu]

end Sys2Proof.Machine.State
end

