-- ==== Sys2Proof/Laws/Frames.lean ====
section
/-! SUPPORT. What each shared operation leaves alone: for every operation one lemma that names each part of State it
does not change. The parts a lemma does not name are the ones the operation may change. -/

namespace Sys2Proof.Machine.State

variable (s : State)

/-! ### Operations of Machine/Ops.lean and Machine/Roster.lean -/

@[simp] theorem writeLog_frame (e : LogEntry) :
    (s.writeLog e).lines = s.lines ∧
    (s.writeLog e).mode = s.mode ∧
    (s.writeLog e).roster = s.roster ∧
    (s.writeLog e).policyStaged = s.policyStaged ∧
    (s.writeLog e).policyActive = s.policyActive ∧
    (s.writeLog e).rsq = s.rsq ∧
    (s.writeLog e).bau = s.bau ∧
    (s.writeLog e).rebalStaged = s.rebalStaged ∧
    (s.writeLog e).rebalActive = s.rebalActive ∧
    (s.writeLog e).rtu = s.rtu ∧
    (s.writeLog e).ctu = s.ctu ∧
    (s.writeLog e).screenStaged = s.screenStaged ∧
    (s.writeLog e).screenActive = s.screenActive ∧
    (s.writeLog e).ssc = s.ssc ∧
    (s.writeLog e).links = s.links ∧
    (s.writeLog e).mga = s.mga ∧
    (s.writeLog e).settings = s.settings ∧
    (s.writeLog e).ps = s.ps ∧
    (s.writeLog e).pending = s.pending := by
  simp [writeLog]

@[simp] theorem assignSpare_frame (p : Port) :
    (s.assignSpare p).lines = s.lines ∧
    (s.assignSpare p).mode = s.mode ∧
    (s.assignSpare p).policyStaged = s.policyStaged ∧
    (s.assignSpare p).policyActive = s.policyActive ∧
    (s.assignSpare p).rsq = s.rsq ∧
    (s.assignSpare p).bau = s.bau ∧
    (s.assignSpare p).rebalStaged = s.rebalStaged ∧
    (s.assignSpare p).rebalActive = s.rebalActive ∧
    (s.assignSpare p).rtu = s.rtu ∧
    (s.assignSpare p).ctu = s.ctu ∧
    (s.assignSpare p).screenStaged = s.screenStaged ∧
    (s.assignSpare p).screenActive = s.screenActive ∧
    (s.assignSpare p).ssc = s.ssc ∧
    (s.assignSpare p).links = s.links ∧
    (s.assignSpare p).cli = s.cli ∧
    (s.assignSpare p).mga = s.mga ∧
    (s.assignSpare p).settings = s.settings ∧
    (s.assignSpare p).log = s.log ∧
    (s.assignSpare p).ps = s.ps ∧
    (s.assignSpare p).pending = s.pending := by
  simp only [assignSpare]
  repeat' split
  all_goals simp

@[simp] theorem foldl_assignSpare_frame (l : List Port) :
    (l.foldl assignSpare s).lines = s.lines ∧
    (l.foldl assignSpare s).mode = s.mode ∧
    (l.foldl assignSpare s).policyStaged = s.policyStaged ∧
    (l.foldl assignSpare s).policyActive = s.policyActive ∧
    (l.foldl assignSpare s).rsq = s.rsq ∧
    (l.foldl assignSpare s).bau = s.bau ∧
    (l.foldl assignSpare s).rebalStaged = s.rebalStaged ∧
    (l.foldl assignSpare s).rebalActive = s.rebalActive ∧
    (l.foldl assignSpare s).rtu = s.rtu ∧
    (l.foldl assignSpare s).ctu = s.ctu ∧
    (l.foldl assignSpare s).screenStaged = s.screenStaged ∧
    (l.foldl assignSpare s).screenActive = s.screenActive ∧
    (l.foldl assignSpare s).ssc = s.ssc ∧
    (l.foldl assignSpare s).links = s.links ∧
    (l.foldl assignSpare s).cli = s.cli ∧
    (l.foldl assignSpare s).mga = s.mga ∧
    (l.foldl assignSpare s).settings = s.settings ∧
    (l.foldl assignSpare s).log = s.log ∧
    (l.foldl assignSpare s).ps = s.ps ∧
    (l.foldl assignSpare s).pending = s.pending := by
  induction l generalizing s with
  | nil => simp
  | cons a l ih =>
    have h := ih (s.assignSpare a)
    simpa using h

@[simp] theorem selectSpares_frame  :
    (s.selectSpares).lines = s.lines ∧
    (s.selectSpares).mode = s.mode ∧
    (s.selectSpares).policyStaged = s.policyStaged ∧
    (s.selectSpares).policyActive = s.policyActive ∧
    (s.selectSpares).rsq = s.rsq ∧
    (s.selectSpares).bau = s.bau ∧
    (s.selectSpares).rebalStaged = s.rebalStaged ∧
    (s.selectSpares).rebalActive = s.rebalActive ∧
    (s.selectSpares).rtu = s.rtu ∧
    (s.selectSpares).ctu = s.ctu ∧
    (s.selectSpares).screenStaged = s.screenStaged ∧
    (s.selectSpares).screenActive = s.screenActive ∧
    (s.selectSpares).ssc = s.ssc ∧
    (s.selectSpares).links = s.links ∧
    (s.selectSpares).cli = s.cli ∧
    (s.selectSpares).mga = s.mga ∧
    (s.selectSpares).settings = s.settings ∧
    (s.selectSpares).log = s.log ∧
    (s.selectSpares).ps = s.ps ∧
    (s.selectSpares).pending = s.pending := by
  simp only [selectSpares]
  repeat' split
  all_goals simp

@[simp] theorem reselect_frame  :
    (s.reselect).lines = s.lines ∧
    (s.reselect).mode = s.mode ∧
    (s.reselect).policyStaged = s.policyStaged ∧
    (s.reselect).policyActive = s.policyActive ∧
    (s.reselect).rsq = s.rsq ∧
    (s.reselect).bau = s.bau ∧
    (s.reselect).rebalStaged = s.rebalStaged ∧
    (s.reselect).rebalActive = s.rebalActive ∧
    (s.reselect).rtu = s.rtu ∧
    (s.reselect).ctu = s.ctu ∧
    (s.reselect).screenStaged = s.screenStaged ∧
    (s.reselect).screenActive = s.screenActive ∧
    (s.reselect).ssc = s.ssc ∧
    (s.reselect).links = s.links ∧
    (s.reselect).cli = s.cli ∧
    (s.reselect).mga = s.mga ∧
    (s.reselect).settings = s.settings ∧
    (s.reselect).log = s.log ∧
    (s.reselect).ps = s.ps ∧
    (s.reselect).pending = s.pending := by
  simp only [reselect]
  repeat' split
  all_goals simp

@[simp] theorem deselect_frame (p : Port) :
    (s.deselect p).lines = s.lines ∧
    (s.deselect p).mode = s.mode ∧
    (s.deselect p).policyStaged = s.policyStaged ∧
    (s.deselect p).policyActive = s.policyActive ∧
    (s.deselect p).rsq = s.rsq ∧
    (s.deselect p).bau = s.bau ∧
    (s.deselect p).rebalStaged = s.rebalStaged ∧
    (s.deselect p).rebalActive = s.rebalActive ∧
    (s.deselect p).rtu = s.rtu ∧
    (s.deselect p).ctu = s.ctu ∧
    (s.deselect p).screenStaged = s.screenStaged ∧
    (s.deselect p).screenActive = s.screenActive ∧
    (s.deselect p).ssc = s.ssc ∧
    (s.deselect p).links = s.links ∧
    (s.deselect p).cli = s.cli ∧
    (s.deselect p).mga = s.mga ∧
    (s.deselect p).settings = s.settings ∧
    (s.deselect p).log = s.log ∧
    (s.deselect p).ps = s.ps ∧
    (s.deselect p).pending = s.pending := by
  simp [deselect]

@[simp] theorem renumberPhase_frame (x : Phase) :
    (s.renumberPhase x).lines = s.lines ∧
    (s.renumberPhase x).mode = s.mode ∧
    (s.renumberPhase x).policyStaged = s.policyStaged ∧
    (s.renumberPhase x).policyActive = s.policyActive ∧
    (s.renumberPhase x).rsq = s.rsq ∧
    (s.renumberPhase x).bau = s.bau ∧
    (s.renumberPhase x).rebalStaged = s.rebalStaged ∧
    (s.renumberPhase x).rebalActive = s.rebalActive ∧
    (s.renumberPhase x).rtu = s.rtu ∧
    (s.renumberPhase x).ctu = s.ctu ∧
    (s.renumberPhase x).screenStaged = s.screenStaged ∧
    (s.renumberPhase x).screenActive = s.screenActive ∧
    (s.renumberPhase x).ssc = s.ssc ∧
    (s.renumberPhase x).links = s.links ∧
    (s.renumberPhase x).cli = s.cli ∧
    (s.renumberPhase x).mga = s.mga ∧
    (s.renumberPhase x).settings = s.settings ∧
    (s.renumberPhase x).log = s.log ∧
    (s.renumberPhase x).ps = s.ps ∧
    (s.renumberPhase x).pending = s.pending := by
  simp only [renumberPhase]
  simp

@[simp] theorem renumber_frame  :
    (s.renumber).lines = s.lines ∧
    (s.renumber).mode = s.mode ∧
    (s.renumber).policyStaged = s.policyStaged ∧
    (s.renumber).policyActive = s.policyActive ∧
    (s.renumber).rsq = s.rsq ∧
    (s.renumber).bau = s.bau ∧
    (s.renumber).rebalStaged = s.rebalStaged ∧
    (s.renumber).rebalActive = s.rebalActive ∧
    (s.renumber).rtu = s.rtu ∧
    (s.renumber).ctu = s.ctu ∧
    (s.renumber).screenStaged = s.screenStaged ∧
    (s.renumber).screenActive = s.screenActive ∧
    (s.renumber).ssc = s.ssc ∧
    (s.renumber).links = s.links ∧
    (s.renumber).cli = s.cli ∧
    (s.renumber).mga = s.mga ∧
    (s.renumber).settings = s.settings ∧
    (s.renumber).log = s.log ∧
    (s.renumber).ps = s.ps ∧
    (s.renumber).pending = s.pending := by
  simp [renumber]

@[simp] theorem rebuild_frame  :
    (s.rebuild).lines = s.lines ∧
    (s.rebuild).mode = s.mode ∧
    (s.rebuild).policyStaged = s.policyStaged ∧
    (s.rebuild).policyActive = s.policyActive ∧
    (s.rebuild).rsq = s.rsq ∧
    (s.rebuild).rebalStaged = s.rebalStaged ∧
    (s.rebuild).rebalActive = s.rebalActive ∧
    (s.rebuild).rtu = s.rtu ∧
    (s.rebuild).ctu = s.ctu ∧
    (s.rebuild).screenStaged = s.screenStaged ∧
    (s.rebuild).screenActive = s.screenActive ∧
    (s.rebuild).ssc = s.ssc ∧
    (s.rebuild).links = s.links ∧
    (s.rebuild).cli = s.cli ∧
    (s.rebuild).mga = s.mga ∧
    (s.rebuild).settings = s.settings ∧
    (s.rebuild).log = s.log ∧
    (s.rebuild).ps = s.ps ∧
    (s.rebuild).pending = s.pending := by
  simp [rebuild]

@[simp] theorem compact_frame  :
    (s.compact).lines = s.lines ∧
    (s.compact).mode = s.mode ∧
    (s.compact).policyStaged = s.policyStaged ∧
    (s.compact).policyActive = s.policyActive ∧
    (s.compact).rsq = s.rsq ∧
    (s.compact).bau = s.bau ∧
    (s.compact).rebalStaged = s.rebalStaged ∧
    (s.compact).rebalActive = s.rebalActive ∧
    (s.compact).rtu = s.rtu ∧
    (s.compact).ctu = s.ctu ∧
    (s.compact).screenStaged = s.screenStaged ∧
    (s.compact).screenActive = s.screenActive ∧
    (s.compact).ssc = s.ssc ∧
    (s.compact).links = s.links ∧
    (s.compact).cli = s.cli ∧
    (s.compact).mga = s.mga ∧
    (s.compact).settings = s.settings ∧
    (s.compact).log = s.log ∧
    (s.compact).ps = s.ps ∧
    (s.compact).pending = s.pending := by
  simp [compact]

/-! ### Operations of Machine/Departure.lean -/

@[simp] theorem urgentZero_frame (p : Port) :
    (s.urgentZero p).lines = s.lines ∧
    (s.urgentZero p).mode = s.mode ∧
    (s.urgentZero p).roster = s.roster ∧
    (s.urgentZero p).policyStaged = s.policyStaged ∧
    (s.urgentZero p).policyActive = s.policyActive ∧
    (s.urgentZero p).rsq = s.rsq ∧
    (s.urgentZero p).bau = s.bau ∧
    (s.urgentZero p).rebalStaged = s.rebalStaged ∧
    (s.urgentZero p).rebalActive = s.rebalActive ∧
    (s.urgentZero p).rtu = s.rtu ∧
    (s.urgentZero p).ctu = s.ctu ∧
    (s.urgentZero p).screenStaged = s.screenStaged ∧
    (s.urgentZero p).screenActive = s.screenActive ∧
    (s.urgentZero p).ssc = s.ssc ∧
    (s.urgentZero p).cli = s.cli ∧
    (s.urgentZero p).mga = s.mga ∧
    (s.urgentZero p).settings = s.settings ∧
    (s.urgentZero p).log = s.log ∧
    (s.urgentZero p).ps = s.ps ∧
    (s.urgentZero p).pending = s.pending := by
  simp [urgentZero]

@[simp] theorem urgentBlock_frame  :
    (s.urgentBlock).lines = s.lines ∧
    (s.urgentBlock).mode = s.mode ∧
    (s.urgentBlock).roster = s.roster ∧
    (s.urgentBlock).policyStaged = s.policyStaged ∧
    (s.urgentBlock).policyActive = s.policyActive ∧
    (s.urgentBlock).rsq = s.rsq ∧
    (s.urgentBlock).bau = s.bau ∧
    (s.urgentBlock).rebalStaged = s.rebalStaged ∧
    (s.urgentBlock).rebalActive = s.rebalActive ∧
    (s.urgentBlock).rtu = s.rtu ∧
    (s.urgentBlock).ctu = s.ctu ∧
    (s.urgentBlock).screenStaged = s.screenStaged ∧
    (s.urgentBlock).screenActive = s.screenActive ∧
    (s.urgentBlock).ssc = s.ssc ∧
    (s.urgentBlock).cli = s.cli ∧
    (s.urgentBlock).mga = s.mga ∧
    (s.urgentBlock).settings = s.settings ∧
    (s.urgentBlock).log = s.log ∧
    (s.urgentBlock).ps = s.ps ∧
    (s.urgentBlock).pending = s.pending := by
  simp only [urgentBlock]
  simp

@[simp] theorem closeWindow_frame  :
    (s.closeWindow).lines = s.lines ∧
    (s.closeWindow).mode = s.mode ∧
    (s.closeWindow).roster = s.roster ∧
    (s.closeWindow).policyStaged = s.policyStaged ∧
    (s.closeWindow).policyActive = s.policyActive ∧
    (s.closeWindow).rsq = s.rsq ∧
    (s.closeWindow).bau = s.bau ∧
    (s.closeWindow).rebalStaged = s.rebalStaged ∧
    (s.closeWindow).rebalActive = s.rebalActive ∧
    (s.closeWindow).rtu = s.rtu ∧
    (s.closeWindow).screenStaged = s.screenStaged ∧
    (s.closeWindow).screenActive = s.screenActive ∧
    (s.closeWindow).ssc = s.ssc ∧
    (s.closeWindow).links = s.links ∧
    (s.closeWindow).cli = s.cli ∧
    (s.closeWindow).mga = s.mga ∧
    (s.closeWindow).settings = s.settings ∧
    (s.closeWindow).log = s.log ∧
    (s.closeWindow).ps = s.ps ∧
    (s.closeWindow).pending = s.pending := by
  simp [closeWindow]

@[simp] theorem sequencerRest_frame  :
    (s.sequencerRest).lines = s.lines ∧
    (s.sequencerRest).mode = s.mode ∧
    (s.sequencerRest).roster = s.roster ∧
    (s.sequencerRest).policyStaged = s.policyStaged ∧
    (s.sequencerRest).policyActive = s.policyActive ∧
    (s.sequencerRest).bau = s.bau ∧
    (s.sequencerRest).rebalStaged = s.rebalStaged ∧
    (s.sequencerRest).rebalActive = s.rebalActive ∧
    (s.sequencerRest).rtu = s.rtu ∧
    (s.sequencerRest).ctu = s.ctu ∧
    (s.sequencerRest).screenStaged = s.screenStaged ∧
    (s.sequencerRest).screenActive = s.screenActive ∧
    (s.sequencerRest).ssc = s.ssc ∧
    (s.sequencerRest).links = s.links ∧
    (s.sequencerRest).cli = s.cli ∧
    (s.sequencerRest).mga = s.mga ∧
    (s.sequencerRest).settings = s.settings ∧
    (s.sequencerRest).log = s.log ∧
    (s.sequencerRest).ps = s.ps ∧
    (s.sequencerRest).pending = s.pending := by
  simp [sequencerRest]

@[simp] theorem pruneQueue_frame  :
    (s.pruneQueue).lines = s.lines ∧
    (s.pruneQueue).mode = s.mode ∧
    (s.pruneQueue).roster = s.roster ∧
    (s.pruneQueue).policyStaged = s.policyStaged ∧
    (s.pruneQueue).policyActive = s.policyActive ∧
    (s.pruneQueue).rsq = s.rsq ∧
    (s.pruneQueue).rebalStaged = s.rebalStaged ∧
    (s.pruneQueue).rebalActive = s.rebalActive ∧
    (s.pruneQueue).rtu = s.rtu ∧
    (s.pruneQueue).ctu = s.ctu ∧
    (s.pruneQueue).screenStaged = s.screenStaged ∧
    (s.pruneQueue).screenActive = s.screenActive ∧
    (s.pruneQueue).ssc = s.ssc ∧
    (s.pruneQueue).links = s.links ∧
    (s.pruneQueue).cli = s.cli ∧
    (s.pruneQueue).mga = s.mga ∧
    (s.pruneQueue).settings = s.settings ∧
    (s.pruneQueue).log = s.log ∧
    (s.pruneQueue).pending = s.pending := by
  simp [pruneQueue]

@[simp] theorem departRun_frame (m : Mode) :
    (s.departRun m).lines = s.lines ∧
    (s.departRun m).policyStaged = s.policyStaged ∧
    (s.departRun m).policyActive = s.policyActive ∧
    (s.departRun m).rebalStaged = s.rebalStaged ∧
    (s.departRun m).rebalActive = s.rebalActive ∧
    (s.departRun m).rtu = s.rtu ∧
    (s.departRun m).screenStaged = s.screenStaged ∧
    (s.departRun m).screenActive = s.screenActive ∧
    (s.departRun m).ssc = s.ssc ∧
    (s.departRun m).cli = s.cli ∧
    (s.departRun m).mga = s.mga ∧
    (s.departRun m).settings = s.settings ∧
    (s.departRun m).log = s.log ∧
    (s.departRun m).pending = s.pending := by
  simp [departRun]

@[simp] theorem requestTrip_frame (t : TripRequest) :
    (s.requestTrip t).lines = s.lines ∧
    (s.requestTrip t).policyStaged = s.policyStaged ∧
    (s.requestTrip t).policyActive = s.policyActive ∧
    (s.requestTrip t).rebalStaged = s.rebalStaged ∧
    (s.requestTrip t).rebalActive = s.rebalActive ∧
    (s.requestTrip t).rtu = s.rtu ∧
    (s.requestTrip t).screenStaged = s.screenStaged ∧
    (s.requestTrip t).screenActive = s.screenActive ∧
    (s.requestTrip t).ssc = s.ssc ∧
    (s.requestTrip t).mga = s.mga ∧
    (s.requestTrip t).settings = s.settings ∧
    (s.requestTrip t).pending = s.pending := by
  simp only [requestTrip]
  repeat' split
  all_goals simp

/-! ### Operations of Machine/Latch.lean -/

@[simp] theorem makeIsolating_frame (p : Port) :
    (s.makeIsolating p).lines = s.lines ∧
    (s.makeIsolating p).mode = s.mode ∧
    (s.makeIsolating p).policyStaged = s.policyStaged ∧
    (s.makeIsolating p).policyActive = s.policyActive ∧
    (s.makeIsolating p).rsq = s.rsq ∧
    (s.makeIsolating p).rebalStaged = s.rebalStaged ∧
    (s.makeIsolating p).rebalActive = s.rebalActive ∧
    (s.makeIsolating p).rtu = s.rtu ∧
    (s.makeIsolating p).ctu = s.ctu ∧
    (s.makeIsolating p).screenStaged = s.screenStaged ∧
    (s.makeIsolating p).screenActive = s.screenActive ∧
    (s.makeIsolating p).ssc = s.ssc ∧
    (s.makeIsolating p).links = s.links ∧
    (s.makeIsolating p).cli = s.cli ∧
    (s.makeIsolating p).mga = s.mga ∧
    (s.makeIsolating p).settings = s.settings ∧
    (s.makeIsolating p).log = s.log ∧
    (s.makeIsolating p).ps = s.ps ∧
    (s.makeIsolating p).pending = s.pending := by
  simp [makeIsolating]

@[simp] theorem enterInhibit_frame  :
    (s.enterInhibit).lines = s.lines ∧
    (s.enterInhibit).mode = s.mode ∧
    (s.enterInhibit).roster = s.roster ∧
    (s.enterInhibit).policyStaged = s.policyStaged ∧
    (s.enterInhibit).policyActive = s.policyActive ∧
    (s.enterInhibit).bau = s.bau ∧
    (s.enterInhibit).rebalStaged = s.rebalStaged ∧
    (s.enterInhibit).rebalActive = s.rebalActive ∧
    (s.enterInhibit).rtu = s.rtu ∧
    (s.enterInhibit).screenStaged = s.screenStaged ∧
    (s.enterInhibit).screenActive = s.screenActive ∧
    (s.enterInhibit).ssc = s.ssc ∧
    (s.enterInhibit).cli = s.cli ∧
    (s.enterInhibit).mga = s.mga ∧
    (s.enterInhibit).settings = s.settings ∧
    (s.enterInhibit).log = s.log ∧
    (s.enterInhibit).pending = s.pending := by
  simp [enterInhibit]

@[simp] theorem push_frame (interrupted : Stage) (gap : Nat) (policy : Option PolicyEntry) :
    (s.push interrupted gap policy).lines = s.lines ∧
    (s.push interrupted gap policy).mode = s.mode ∧
    (s.push interrupted gap policy).roster = s.roster ∧
    (s.push interrupted gap policy).policyStaged = s.policyStaged ∧
    (s.push interrupted gap policy).policyActive = s.policyActive ∧
    (s.push interrupted gap policy).bau = s.bau ∧
    (s.push interrupted gap policy).rebalStaged = s.rebalStaged ∧
    (s.push interrupted gap policy).rebalActive = s.rebalActive ∧
    (s.push interrupted gap policy).rtu = s.rtu ∧
    (s.push interrupted gap policy).screenStaged = s.screenStaged ∧
    (s.push interrupted gap policy).screenActive = s.screenActive ∧
    (s.push interrupted gap policy).ssc = s.ssc ∧
    (s.push interrupted gap policy).cli = s.cli ∧
    (s.push interrupted gap policy).mga = s.mga ∧
    (s.push interrupted gap policy).settings = s.settings ∧
    (s.push interrupted gap policy).log = s.log ∧
    (s.push interrupted gap policy).pending = s.pending := by
  simp [push]

@[simp] theorem openEpisode_frame (p : Port) :
    (s.openEpisode p).1.lines = s.lines ∧
    (s.openEpisode p).1.mode = s.mode ∧
    (s.openEpisode p).1.policyStaged = s.policyStaged ∧
    (s.openEpisode p).1.policyActive = s.policyActive ∧
    (s.openEpisode p).1.rebalStaged = s.rebalStaged ∧
    (s.openEpisode p).1.rebalActive = s.rebalActive ∧
    (s.openEpisode p).1.rtu = s.rtu ∧
    (s.openEpisode p).1.screenStaged = s.screenStaged ∧
    (s.openEpisode p).1.screenActive = s.screenActive ∧
    (s.openEpisode p).1.ssc = s.ssc ∧
    (s.openEpisode p).1.cli = s.cli ∧
    (s.openEpisode p).1.mga = s.mga ∧
    (s.openEpisode p).1.settings = s.settings ∧
    (s.openEpisode p).1.log = s.log ∧
    (s.openEpisode p).1.pending = s.pending := by
  simp only [openEpisode]
  repeat' split
  all_goals simp

@[simp] theorem stopSettle_frame  :
    (s.stopSettle).lines = s.lines ∧
    (s.stopSettle).mode = s.mode ∧
    (s.stopSettle).roster = s.roster ∧
    (s.stopSettle).policyStaged = s.policyStaged ∧
    (s.stopSettle).policyActive = s.policyActive ∧
    (s.stopSettle).rsq = s.rsq ∧
    (s.stopSettle).rebalStaged = s.rebalStaged ∧
    (s.stopSettle).rebalActive = s.rebalActive ∧
    (s.stopSettle).rtu = s.rtu ∧
    (s.stopSettle).ctu = s.ctu ∧
    (s.stopSettle).screenStaged = s.screenStaged ∧
    (s.stopSettle).screenActive = s.screenActive ∧
    (s.stopSettle).ssc = s.ssc ∧
    (s.stopSettle).links = s.links ∧
    (s.stopSettle).cli = s.cli ∧
    (s.stopSettle).mga = s.mga ∧
    (s.stopSettle).settings = s.settings ∧
    (s.stopSettle).log = s.log ∧
    (s.stopSettle).pending = s.pending := by
  simp only [stopSettle]
  repeat' split
  all_goals simp

@[simp] theorem joinRecovery_frame (p : Port) :
    (s.joinRecovery p).1.lines = s.lines ∧
    (s.joinRecovery p).1.mode = s.mode ∧
    (s.joinRecovery p).1.policyStaged = s.policyStaged ∧
    (s.joinRecovery p).1.policyActive = s.policyActive ∧
    (s.joinRecovery p).1.rsq = s.rsq ∧
    (s.joinRecovery p).1.rebalStaged = s.rebalStaged ∧
    (s.joinRecovery p).1.rebalActive = s.rebalActive ∧
    (s.joinRecovery p).1.rtu = s.rtu ∧
    (s.joinRecovery p).1.ctu = s.ctu ∧
    (s.joinRecovery p).1.screenStaged = s.screenStaged ∧
    (s.joinRecovery p).1.screenActive = s.screenActive ∧
    (s.joinRecovery p).1.ssc = s.ssc ∧
    (s.joinRecovery p).1.links = s.links ∧
    (s.joinRecovery p).1.cli = s.cli ∧
    (s.joinRecovery p).1.mga = s.mga ∧
    (s.joinRecovery p).1.settings = s.settings ∧
    (s.joinRecovery p).1.log = s.log ∧
    (s.joinRecovery p).1.pending = s.pending := by
  simp only [joinRecovery]
  repeat' split
  all_goals simp

@[simp] theorem deferLatch_frame (p : Port) :
    (s.deferLatch p).lines = s.lines ∧
    (s.deferLatch p).mode = s.mode ∧
    (s.deferLatch p).policyStaged = s.policyStaged ∧
    (s.deferLatch p).policyActive = s.policyActive ∧
    (s.deferLatch p).rsq = s.rsq ∧
    (s.deferLatch p).bau = s.bau ∧
    (s.deferLatch p).rebalStaged = s.rebalStaged ∧
    (s.deferLatch p).rebalActive = s.rebalActive ∧
    (s.deferLatch p).rtu = s.rtu ∧
    (s.deferLatch p).ctu = s.ctu ∧
    (s.deferLatch p).screenStaged = s.screenStaged ∧
    (s.deferLatch p).screenActive = s.screenActive ∧
    (s.deferLatch p).ssc = s.ssc ∧
    (s.deferLatch p).links = s.links ∧
    (s.deferLatch p).cli = s.cli ∧
    (s.deferLatch p).mga = s.mga ∧
    (s.deferLatch p).settings = s.settings ∧
    (s.deferLatch p).log = s.log ∧
    (s.deferLatch p).ps = s.ps ∧
    (s.deferLatch p).pending = s.pending := by
  simp [deferLatch]

@[simp] theorem pushBack_frame (p : Port) (gap : Nat) :
    (s.pushBack p gap).1.lines = s.lines ∧
    (s.pushBack p gap).1.mode = s.mode ∧
    (s.pushBack p gap).1.policyStaged = s.policyStaged ∧
    (s.pushBack p gap).1.policyActive = s.policyActive ∧
    (s.pushBack p gap).1.rebalStaged = s.rebalStaged ∧
    (s.pushBack p gap).1.rebalActive = s.rebalActive ∧
    (s.pushBack p gap).1.rtu = s.rtu ∧
    (s.pushBack p gap).1.screenStaged = s.screenStaged ∧
    (s.pushBack p gap).1.screenActive = s.screenActive ∧
    (s.pushBack p gap).1.ssc = s.ssc ∧
    (s.pushBack p gap).1.cli = s.cli ∧
    (s.pushBack p gap).1.mga = s.mga ∧
    (s.pushBack p gap).1.settings = s.settings ∧
    (s.pushBack p gap).1.log = s.log ∧
    (s.pushBack p gap).1.pending = s.pending := by
  simp only [pushBack]
  repeat' split
  all_goals simp

@[simp] theorem latchActive_frame (p : Port) :
    (s.latchActive p).1.lines = s.lines ∧
    (s.latchActive p).1.mode = s.mode ∧
    (s.latchActive p).1.policyStaged = s.policyStaged ∧
    (s.latchActive p).1.policyActive = s.policyActive ∧
    (s.latchActive p).1.rebalStaged = s.rebalStaged ∧
    (s.latchActive p).1.rebalActive = s.rebalActive ∧
    (s.latchActive p).1.rtu = s.rtu ∧
    (s.latchActive p).1.screenStaged = s.screenStaged ∧
    (s.latchActive p).1.screenActive = s.screenActive ∧
    (s.latchActive p).1.ssc = s.ssc ∧
    (s.latchActive p).1.cli = s.cli ∧
    (s.latchActive p).1.mga = s.mga ∧
    (s.latchActive p).1.settings = s.settings ∧
    (s.latchActive p).1.log = s.log ∧
    (s.latchActive p).1.pending = s.pending := by
  simp only [latchActive]
  repeat' split
  all_goals simp

@[simp] theorem retireSpare_frame (p : Port) :
    (s.retireSpare p).lines = s.lines ∧
    (s.retireSpare p).mode = s.mode ∧
    (s.retireSpare p).policyStaged = s.policyStaged ∧
    (s.retireSpare p).policyActive = s.policyActive ∧
    (s.retireSpare p).rsq = s.rsq ∧
    (s.retireSpare p).bau = s.bau ∧
    (s.retireSpare p).rebalStaged = s.rebalStaged ∧
    (s.retireSpare p).rebalActive = s.rebalActive ∧
    (s.retireSpare p).rtu = s.rtu ∧
    (s.retireSpare p).ctu = s.ctu ∧
    (s.retireSpare p).screenStaged = s.screenStaged ∧
    (s.retireSpare p).screenActive = s.screenActive ∧
    (s.retireSpare p).ssc = s.ssc ∧
    (s.retireSpare p).links = s.links ∧
    (s.retireSpare p).cli = s.cli ∧
    (s.retireSpare p).mga = s.mga ∧
    (s.retireSpare p).settings = s.settings ∧
    (s.retireSpare p).log = s.log ∧
    (s.retireSpare p).ps = s.ps ∧
    (s.retireSpare p).pending = s.pending := by
  simp only [retireSpare]
  repeat' split
  all_goals simp

@[simp] theorem latchEffect_frame (p : Port) :
    (s.latchEffect p).1.lines = s.lines ∧
    (s.latchEffect p).1.mode = s.mode ∧
    (s.latchEffect p).1.policyStaged = s.policyStaged ∧
    (s.latchEffect p).1.policyActive = s.policyActive ∧
    (s.latchEffect p).1.rebalStaged = s.rebalStaged ∧
    (s.latchEffect p).1.rebalActive = s.rebalActive ∧
    (s.latchEffect p).1.rtu = s.rtu ∧
    (s.latchEffect p).1.screenStaged = s.screenStaged ∧
    (s.latchEffect p).1.screenActive = s.screenActive ∧
    (s.latchEffect p).1.ssc = s.ssc ∧
    (s.latchEffect p).1.cli = s.cli ∧
    (s.latchEffect p).1.mga = s.mga ∧
    (s.latchEffect p).1.settings = s.settings ∧
    (s.latchEffect p).1.log = s.log ∧
    (s.latchEffect p).1.pending = s.pending := by
  simp only [latchEffect]
  repeat' split
  all_goals simp

@[simp] theorem countLatch_frame (l : Latch) (m : Mode) (st : Stage) (depth : Nat) :
    (s.countLatch l m st depth).lines = s.lines ∧
    (s.countLatch l m st depth).mode = s.mode ∧
    (s.countLatch l m st depth).policyStaged = s.policyStaged ∧
    (s.countLatch l m st depth).policyActive = s.policyActive ∧
    (s.countLatch l m st depth).rsq = s.rsq ∧
    (s.countLatch l m st depth).bau = s.bau ∧
    (s.countLatch l m st depth).rebalStaged = s.rebalStaged ∧
    (s.countLatch l m st depth).rebalActive = s.rebalActive ∧
    (s.countLatch l m st depth).rtu = s.rtu ∧
    (s.countLatch l m st depth).ctu = s.ctu ∧
    (s.countLatch l m st depth).screenStaged = s.screenStaged ∧
    (s.countLatch l m st depth).screenActive = s.screenActive ∧
    (s.countLatch l m st depth).ssc = s.ssc ∧
    (s.countLatch l m st depth).links = s.links ∧
    (s.countLatch l m st depth).mga = s.mga ∧
    (s.countLatch l m st depth).settings = s.settings ∧
    (s.countLatch l m st depth).ps = s.ps ∧
    (s.countLatch l m st depth).pending = s.pending := by
  simp [countLatch]

@[simp] theorem acceptLatch_frame (l : Latch) :
    (s.acceptLatch l).lines = s.lines ∧
    (s.acceptLatch l).policyStaged = s.policyStaged ∧
    (s.acceptLatch l).policyActive = s.policyActive ∧
    (s.acceptLatch l).rebalStaged = s.rebalStaged ∧
    (s.acceptLatch l).rebalActive = s.rebalActive ∧
    (s.acceptLatch l).rtu = s.rtu ∧
    (s.acceptLatch l).screenStaged = s.screenStaged ∧
    (s.acceptLatch l).screenActive = s.screenActive ∧
    (s.acceptLatch l).ssc = s.ssc ∧
    (s.acceptLatch l).mga = s.mga ∧
    (s.acceptLatch l).settings = s.settings ∧
    (s.acceptLatch l).pending = s.pending := by
  simp only [acceptLatch]
  repeat' split
  all_goals simp

@[simp] theorem latchOutsideRun_frame (l : Latch) :
    (s.latchOutsideRun l).lines = s.lines ∧
    (s.latchOutsideRun l).mode = s.mode ∧
    (s.latchOutsideRun l).policyStaged = s.policyStaged ∧
    (s.latchOutsideRun l).policyActive = s.policyActive ∧
    (s.latchOutsideRun l).rsq = s.rsq ∧
    (s.latchOutsideRun l).bau = s.bau ∧
    (s.latchOutsideRun l).rebalStaged = s.rebalStaged ∧
    (s.latchOutsideRun l).rebalActive = s.rebalActive ∧
    (s.latchOutsideRun l).rtu = s.rtu ∧
    (s.latchOutsideRun l).ctu = s.ctu ∧
    (s.latchOutsideRun l).screenStaged = s.screenStaged ∧
    (s.latchOutsideRun l).screenActive = s.screenActive ∧
    (s.latchOutsideRun l).ssc = s.ssc ∧
    (s.latchOutsideRun l).links = s.links ∧
    (s.latchOutsideRun l).mga = s.mga ∧
    (s.latchOutsideRun l).settings = s.settings ∧
    (s.latchOutsideRun l).ps = s.ps ∧
    (s.latchOutsideRun l).pending = s.pending := by
  simp only [latchOutsideRun]
  repeat' split
  all_goals simp

@[simp] theorem takeLatch_frame (l : Latch) :
    (s.takeLatch l).lines = s.lines ∧
    (s.takeLatch l).policyStaged = s.policyStaged ∧
    (s.takeLatch l).policyActive = s.policyActive ∧
    (s.takeLatch l).rebalStaged = s.rebalStaged ∧
    (s.takeLatch l).rebalActive = s.rebalActive ∧
    (s.takeLatch l).rtu = s.rtu ∧
    (s.takeLatch l).screenStaged = s.screenStaged ∧
    (s.takeLatch l).screenActive = s.screenActive ∧
    (s.takeLatch l).ssc = s.ssc ∧
    (s.takeLatch l).mga = s.mga ∧
    (s.takeLatch l).settings = s.settings ∧
    (s.takeLatch l).pending = s.pending := by
  simp only [takeLatch]
  repeat' split
  all_goals simp

@[simp] theorem departRun_underWay (m : Mode) : (s.departRun m).ps.underWay = s.ps.underWay := by
  simp [departRun, pruneQueue, sequencerRest]

@[simp] theorem requestTrip_underWay (t : TripRequest) : (s.requestTrip t).ps.underWay = s.ps.underWay := by
  simp only [requestTrip]
  split <;> simp

@[simp] theorem push_underWay (st : Stage) (g : Nat) (q : Option PolicyEntry) :
    (s.push st g q).ps.underWay = s.ps.underWay := by
  simp [push, enterInhibit]

@[simp] theorem stopSettle_underWay : s.stopSettle.ps.underWay = s.ps.underWay := by
  simp only [stopSettle]
  split <;> simp

@[simp] theorem latchEffect_underWay (p : Port) : (s.latchEffect p).1.ps.underWay = s.ps.underWay := by
  simp only [latchEffect, latchActive, openEpisode, joinRecovery, pushBack, deferLatch]
  repeat' split
  all_goals simp

@[simp] theorem acceptLatch_underWay (l : Latch) : (s.acceptLatch l).ps.underWay = s.ps.underWay := by
  simp only [acceptLatch]
  repeat' split
  all_goals simp

/-- A latch leaves a period start under way, or none, as it is. -/
@[simp] theorem takeLatch_underWay (l : Latch) : (s.takeLatch l).ps.underWay = s.ps.underWay := by
  simp only [takeLatch]
  split <;> simp

@[simp] theorem foldl_takeLatch_underWay (l : List Latch) :
    (l.foldl takeLatch s).ps.underWay = s.ps.underWay := by
  induction l generalizing s with
  | nil => rfl
  | cons a l ih => simpa using ih (s.takeLatch a)

@[simp] theorem takeHanded_underWay : s.takeHanded.ps.underWay = s.ps.underWay := by simp [takeHanded]

theorem requestTrip_closed (t : TripRequest) (h : s.ps = PeriodProgress.none) :
    (s.requestTrip t).ps = PeriodProgress.none := by
  simp only [requestTrip]
  split <;> simp [departRun, pruneQueue, sequencerRest, h, PeriodProgress.none]

theorem push_closed (st : Stage) (g : Nat) (q : Option PolicyEntry) (h : s.ps = PeriodProgress.none) :
    (s.push st g q).ps = PeriodProgress.none := by
  simp [push, enterInhibit, h, PeriodProgress.none]

theorem stopSettle_closed (h : s.ps = PeriodProgress.none) : s.stopSettle.ps = PeriodProgress.none := by
  simp only [stopSettle]
  split <;> simp [h, PeriodProgress.none]

theorem latchEffect_closed (p : Port) (h : s.ps = PeriodProgress.none) :
    (s.latchEffect p).1.ps = PeriodProgress.none := by
  simp only [latchEffect, latchActive, openEpisode, joinRecovery, pushBack, deferLatch]
  repeat' split
  all_goals simp [h, push_closed, stopSettle_closed]

theorem acceptLatch_closed (l : Latch) (h : s.ps = PeriodProgress.none) :
    (s.acceptLatch l).ps = PeriodProgress.none := by
  simp only [acceptLatch]
  repeat' split
  all_goals simp [h, latchEffect_closed, requestTrip_closed]

/-- A latch leaves a closed record of the period start closed. -/
theorem takeLatch_closed (l : Latch) (h : s.ps = PeriodProgress.none) : (s.takeLatch l).ps = PeriodProgress.none := by
  simp only [takeLatch]
  split <;> simp [h, acceptLatch_closed]

theorem foldl_takeLatch_closed (l : List Latch) (h : s.ps = PeriodProgress.none) :
    (l.foldl takeLatch s).ps = PeriodProgress.none := by
  induction l generalizing s with
  | nil => exact h
  | cons a l ih => exact ih _ (s.takeLatch_closed a h)

theorem takeHanded_closed (h : s.ps = PeriodProgress.none) : s.takeHanded.ps = PeriodProgress.none :=
  foldl_takeLatch_closed _ _ (by simpa using h)

@[simp] theorem foldl_takeLatch_frame (l : List Latch) :
    (l.foldl takeLatch s).lines = s.lines ∧
    (l.foldl takeLatch s).policyStaged = s.policyStaged ∧
    (l.foldl takeLatch s).policyActive = s.policyActive ∧
    (l.foldl takeLatch s).rebalStaged = s.rebalStaged ∧
    (l.foldl takeLatch s).rebalActive = s.rebalActive ∧
    (l.foldl takeLatch s).rtu = s.rtu ∧
    (l.foldl takeLatch s).screenStaged = s.screenStaged ∧
    (l.foldl takeLatch s).screenActive = s.screenActive ∧
    (l.foldl takeLatch s).mga = s.mga ∧
    (l.foldl takeLatch s).settings = s.settings ∧
    (l.foldl takeLatch s).pending = s.pending ∧
    (l.foldl takeLatch s).ssc = s.ssc := by
  induction l generalizing s with
  | nil => simp
  | cons a l ih => simpa using ih (s.takeLatch a)

@[simp] theorem handLatch_frame (l : Latch) (late : Bool) :
    (s.handLatch l late).lines = s.lines ∧
    (s.handLatch l late).policyStaged = s.policyStaged ∧
    (s.handLatch l late).policyActive = s.policyActive ∧
    (s.handLatch l late).rebalStaged = s.rebalStaged ∧
    (s.handLatch l late).rebalActive = s.rebalActive ∧
    (s.handLatch l late).rtu = s.rtu ∧
    (s.handLatch l late).screenStaged = s.screenStaged ∧
    (s.handLatch l late).screenActive = s.screenActive ∧
    (s.handLatch l late).mga = s.mga ∧
    (s.handLatch l late).settings = s.settings ∧
    (s.handLatch l late).pending = s.pending := by
  simp only [handLatch]
  split
  all_goals simp

@[simp] theorem takeHanded_frame :
    s.takeHanded.lines = s.lines ∧
    s.takeHanded.policyStaged = s.policyStaged ∧
    s.takeHanded.policyActive = s.policyActive ∧
    s.takeHanded.rebalStaged = s.rebalStaged ∧
    s.takeHanded.rebalActive = s.rebalActive ∧
    s.takeHanded.rtu = s.rtu ∧
    s.takeHanded.screenStaged = s.screenStaged ∧
    s.takeHanded.screenActive = s.screenActive ∧
    s.takeHanded.mga = s.mga ∧
    s.takeHanded.settings = s.settings ∧
    s.takeHanded.pending = s.pending ∧
    s.takeHanded.ssc = { s.ssc with handed := [] } := by
  simp [takeHanded]

/-! ### Operations of Machine/Actuation.lean -/

@[simp] theorem supplyStep_frame  :
    (s.supplyStep).lines = s.lines ∧
    (s.supplyStep).mode = s.mode ∧
    (s.supplyStep).roster = s.roster ∧
    (s.supplyStep).policyStaged = s.policyStaged ∧
    (s.supplyStep).policyActive = s.policyActive ∧
    (s.supplyStep).rsq = s.rsq ∧
    (s.supplyStep).rebalStaged = s.rebalStaged ∧
    (s.supplyStep).rebalActive = s.rebalActive ∧
    (s.supplyStep).rtu = s.rtu ∧
    (s.supplyStep).ctu = s.ctu ∧
    (s.supplyStep).screenStaged = s.screenStaged ∧
    (s.supplyStep).screenActive = s.screenActive ∧
    (s.supplyStep).ssc = s.ssc ∧
    (s.supplyStep).links = s.links ∧
    (s.supplyStep).cli = s.cli ∧
    (s.supplyStep).mga = s.mga ∧
    (s.supplyStep).settings = s.settings ∧
    (s.supplyStep).log = s.log ∧
    (s.supplyStep).ps = s.ps ∧
    (s.supplyStep).pending = s.pending := by
  simp [supplyStep]

@[simp] theorem dropHead_frame  :
    (s.dropHead).lines = s.lines ∧
    (s.dropHead).mode = s.mode ∧
    (s.dropHead).roster = s.roster ∧
    (s.dropHead).policyStaged = s.policyStaged ∧
    (s.dropHead).policyActive = s.policyActive ∧
    (s.dropHead).rsq = s.rsq ∧
    (s.dropHead).rebalStaged = s.rebalStaged ∧
    (s.dropHead).rebalActive = s.rebalActive ∧
    (s.dropHead).rtu = s.rtu ∧
    (s.dropHead).ctu = s.ctu ∧
    (s.dropHead).screenStaged = s.screenStaged ∧
    (s.dropHead).screenActive = s.screenActive ∧
    (s.dropHead).ssc = s.ssc ∧
    (s.dropHead).links = s.links ∧
    (s.dropHead).cli = s.cli ∧
    (s.dropHead).mga = s.mga ∧
    (s.dropHead).settings = s.settings ∧
    (s.dropHead).log = s.log ∧
    (s.dropHead).ps = s.ps ∧
    (s.dropHead).pending = s.pending := by
  simp [dropHead]

@[simp] theorem setRetry_frame (p : Port) (on : Bool) :
    (s.setRetry p on).lines = s.lines ∧
    (s.setRetry p on).mode = s.mode ∧
    (s.setRetry p on).roster = s.roster ∧
    (s.setRetry p on).policyStaged = s.policyStaged ∧
    (s.setRetry p on).policyActive = s.policyActive ∧
    (s.setRetry p on).rsq = s.rsq ∧
    (s.setRetry p on).rebalStaged = s.rebalStaged ∧
    (s.setRetry p on).rebalActive = s.rebalActive ∧
    (s.setRetry p on).rtu = s.rtu ∧
    (s.setRetry p on).ctu = s.ctu ∧
    (s.setRetry p on).screenStaged = s.screenStaged ∧
    (s.setRetry p on).screenActive = s.screenActive ∧
    (s.setRetry p on).ssc = s.ssc ∧
    (s.setRetry p on).links = s.links ∧
    (s.setRetry p on).cli = s.cli ∧
    (s.setRetry p on).mga = s.mga ∧
    (s.setRetry p on).settings = s.settings ∧
    (s.setRetry p on).log = s.log ∧
    (s.setRetry p on).ps = s.ps ∧
    (s.setRetry p on).pending = s.pending := by
  simp [setRetry]

@[simp] theorem closeFailed_frame (p : Port) :
    (s.closeFailed p).lines = s.lines ∧
    (s.closeFailed p).policyStaged = s.policyStaged ∧
    (s.closeFailed p).policyActive = s.policyActive ∧
    (s.closeFailed p).rebalStaged = s.rebalStaged ∧
    (s.closeFailed p).rebalActive = s.rebalActive ∧
    (s.closeFailed p).rtu = s.rtu ∧
    (s.closeFailed p).screenStaged = s.screenStaged ∧
    (s.closeFailed p).screenActive = s.screenActive ∧
    (s.closeFailed p).ssc = s.ssc ∧
    (s.closeFailed p).mga = s.mga ∧
    (s.closeFailed p).settings = s.settings ∧
    (s.closeFailed p).pending = s.pending := by
  simp only [closeFailed]
  repeat' split
  all_goals simp

@[simp] theorem retryNext_frame (p : Port) :
    (s.retryNext p).lines = s.lines ∧
    (s.retryNext p).mode = s.mode ∧
    (s.retryNext p).roster = s.roster ∧
    (s.retryNext p).policyStaged = s.policyStaged ∧
    (s.retryNext p).policyActive = s.policyActive ∧
    (s.retryNext p).rsq = s.rsq ∧
    (s.retryNext p).bau = s.bau ∧
    (s.retryNext p).rebalStaged = s.rebalStaged ∧
    (s.retryNext p).rebalActive = s.rebalActive ∧
    (s.retryNext p).rtu = s.rtu ∧
    (s.retryNext p).ctu = s.ctu ∧
    (s.retryNext p).screenStaged = s.screenStaged ∧
    (s.retryNext p).screenActive = s.screenActive ∧
    (s.retryNext p).ssc = s.ssc ∧
    (s.retryNext p).links = s.links ∧
    (s.retryNext p).cli = s.cli ∧
    (s.retryNext p).mga = s.mga ∧
    (s.retryNext p).settings = s.settings ∧
    (s.retryNext p).log = s.log ∧
    (s.retryNext p).pending = s.pending := by
  simp [retryNext]

@[simp] theorem openFailed_frame (p : Port) :
    (s.openFailed p).lines = s.lines ∧
    (s.openFailed p).mode = s.mode ∧
    (s.openFailed p).policyStaged = s.policyStaged ∧
    (s.openFailed p).policyActive = s.policyActive ∧
    (s.openFailed p).rsq = s.rsq ∧
    (s.openFailed p).bau = s.bau ∧
    (s.openFailed p).rebalStaged = s.rebalStaged ∧
    (s.openFailed p).rebalActive = s.rebalActive ∧
    (s.openFailed p).rtu = s.rtu ∧
    (s.openFailed p).ctu = s.ctu ∧
    (s.openFailed p).screenStaged = s.screenStaged ∧
    (s.openFailed p).screenActive = s.screenActive ∧
    (s.openFailed p).ssc = s.ssc ∧
    (s.openFailed p).links = s.links ∧
    (s.openFailed p).mga = s.mga ∧
    (s.openFailed p).settings = s.settings ∧
    (s.openFailed p).pending = s.pending := by
  simp only [openFailed]
  repeat' split
  all_goals simp

@[simp] theorem failStep_frame  :
    (s.failStep).lines = s.lines ∧
    (s.failStep).policyStaged = s.policyStaged ∧
    (s.failStep).policyActive = s.policyActive ∧
    (s.failStep).rebalStaged = s.rebalStaged ∧
    (s.failStep).rebalActive = s.rebalActive ∧
    (s.failStep).rtu = s.rtu ∧
    (s.failStep).screenStaged = s.screenStaged ∧
    (s.failStep).screenActive = s.screenActive ∧
    (s.failStep).ssc = s.ssc ∧
    (s.failStep).mga = s.mga ∧
    (s.failStep).settings = s.settings ∧
    (s.failStep).pending = s.pending := by
  simp only [failStep]
  repeat' split
  all_goals simp

@[simp] theorem selectStep_frame  :
    (s.selectStep).lines = s.lines ∧
    (s.selectStep).mode = s.mode ∧
    (s.selectStep).policyStaged = s.policyStaged ∧
    (s.selectStep).policyActive = s.policyActive ∧
    (s.selectStep).rsq = s.rsq ∧
    (s.selectStep).bau = s.bau ∧
    (s.selectStep).rebalStaged = s.rebalStaged ∧
    (s.selectStep).rebalActive = s.rebalActive ∧
    (s.selectStep).rtu = s.rtu ∧
    (s.selectStep).ctu = s.ctu ∧
    (s.selectStep).screenStaged = s.screenStaged ∧
    (s.selectStep).screenActive = s.screenActive ∧
    (s.selectStep).ssc = s.ssc ∧
    (s.selectStep).links = s.links ∧
    (s.selectStep).cli = s.cli ∧
    (s.selectStep).mga = s.mga ∧
    (s.selectStep).settings = s.settings ∧
    (s.selectStep).log = s.log ∧
    (s.selectStep).pending = s.pending := by
  simp only [selectStep]
  repeat' split
  all_goals simp

@[simp] theorem deemClosed_frame (p : Port) :
    (s.deemClosed p).lines = s.lines ∧
    (s.deemClosed p).mode = s.mode ∧
    (s.deemClosed p).policyStaged = s.policyStaged ∧
    (s.deemClosed p).policyActive = s.policyActive ∧
    (s.deemClosed p).rsq = s.rsq ∧
    (s.deemClosed p).rebalStaged = s.rebalStaged ∧
    (s.deemClosed p).rebalActive = s.rebalActive ∧
    (s.deemClosed p).rtu = s.rtu ∧
    (s.deemClosed p).ctu = s.ctu ∧
    (s.deemClosed p).screenStaged = s.screenStaged ∧
    (s.deemClosed p).screenActive = s.screenActive ∧
    (s.deemClosed p).ssc = s.ssc ∧
    (s.deemClosed p).links = s.links ∧
    (s.deemClosed p).cli = s.cli ∧
    (s.deemClosed p).mga = s.mga ∧
    (s.deemClosed p).settings = s.settings ∧
    (s.deemClosed p).log = s.log ∧
    (s.deemClosed p).ps = s.ps ∧
    (s.deemClosed p).pending = s.pending := by
  simp only [deemClosed]
  repeat' split
  all_goals simp

@[simp] theorem foldl_deemClosed_frame (l : List Port) :
    (l.foldl deemClosed s).lines = s.lines ∧
    (l.foldl deemClosed s).mode = s.mode ∧
    (l.foldl deemClosed s).policyStaged = s.policyStaged ∧
    (l.foldl deemClosed s).policyActive = s.policyActive ∧
    (l.foldl deemClosed s).rsq = s.rsq ∧
    (l.foldl deemClosed s).rebalStaged = s.rebalStaged ∧
    (l.foldl deemClosed s).rebalActive = s.rebalActive ∧
    (l.foldl deemClosed s).rtu = s.rtu ∧
    (l.foldl deemClosed s).ctu = s.ctu ∧
    (l.foldl deemClosed s).screenStaged = s.screenStaged ∧
    (l.foldl deemClosed s).screenActive = s.screenActive ∧
    (l.foldl deemClosed s).ssc = s.ssc ∧
    (l.foldl deemClosed s).links = s.links ∧
    (l.foldl deemClosed s).cli = s.cli ∧
    (l.foldl deemClosed s).mga = s.mga ∧
    (l.foldl deemClosed s).settings = s.settings ∧
    (l.foldl deemClosed s).log = s.log ∧
    (l.foldl deemClosed s).ps = s.ps ∧
    (l.foldl deemClosed s).pending = s.pending := by
  induction l generalizing s with
  | nil => simp
  | cons a l ih =>
    have h := ih (s.deemClosed a)
    simpa using h

@[simp] theorem deemStep_frame  :
    (s.deemStep).lines = s.lines ∧
    (s.deemStep).mode = s.mode ∧
    (s.deemStep).policyStaged = s.policyStaged ∧
    (s.deemStep).policyActive = s.policyActive ∧
    (s.deemStep).rsq = s.rsq ∧
    (s.deemStep).rebalStaged = s.rebalStaged ∧
    (s.deemStep).rebalActive = s.rebalActive ∧
    (s.deemStep).rtu = s.rtu ∧
    (s.deemStep).ctu = s.ctu ∧
    (s.deemStep).screenStaged = s.screenStaged ∧
    (s.deemStep).screenActive = s.screenActive ∧
    (s.deemStep).ssc = s.ssc ∧
    (s.deemStep).links = s.links ∧
    (s.deemStep).cli = s.cli ∧
    (s.deemStep).mga = s.mga ∧
    (s.deemStep).settings = s.settings ∧
    (s.deemStep).log = s.log ∧
    (s.deemStep).ps = s.ps ∧
    (s.deemStep).pending = s.pending := by
  simp [deemStep]

@[simp] theorem reconcileStep_frame  :
    (s.reconcileStep).lines = s.lines ∧
    (s.reconcileStep).mode = s.mode ∧
    (s.reconcileStep).roster = s.roster ∧
    (s.reconcileStep).policyStaged = s.policyStaged ∧
    (s.reconcileStep).policyActive = s.policyActive ∧
    (s.reconcileStep).rsq = s.rsq ∧
    (s.reconcileStep).rebalStaged = s.rebalStaged ∧
    (s.reconcileStep).rebalActive = s.rebalActive ∧
    (s.reconcileStep).rtu = s.rtu ∧
    (s.reconcileStep).ctu = s.ctu ∧
    (s.reconcileStep).screenStaged = s.screenStaged ∧
    (s.reconcileStep).screenActive = s.screenActive ∧
    (s.reconcileStep).ssc = s.ssc ∧
    (s.reconcileStep).links = s.links ∧
    (s.reconcileStep).cli = s.cli ∧
    (s.reconcileStep).mga = s.mga ∧
    (s.reconcileStep).settings = s.settings ∧
    (s.reconcileStep).log = s.log ∧
    (s.reconcileStep).ps = s.ps ∧
    (s.reconcileStep).pending = s.pending := by
  simp [reconcileStep]

@[simp] theorem settleStep_frame  :
    (s.settleStep).lines = s.lines ∧
    (s.settleStep).mode = s.mode ∧
    (s.settleStep).roster = s.roster ∧
    (s.settleStep).policyStaged = s.policyStaged ∧
    (s.settleStep).policyActive = s.policyActive ∧
    (s.settleStep).rsq = s.rsq ∧
    (s.settleStep).rebalStaged = s.rebalStaged ∧
    (s.settleStep).rebalActive = s.rebalActive ∧
    (s.settleStep).rtu = s.rtu ∧
    (s.settleStep).ctu = s.ctu ∧
    (s.settleStep).screenStaged = s.screenStaged ∧
    (s.settleStep).screenActive = s.screenActive ∧
    (s.settleStep).ssc = s.ssc ∧
    (s.settleStep).links = s.links ∧
    (s.settleStep).cli = s.cli ∧
    (s.settleStep).mga = s.mga ∧
    (s.settleStep).settings = s.settings ∧
    (s.settleStep).log = s.log ∧
    (s.settleStep).pending = s.pending := by
  simp only [settleStep]
  repeat' split
  all_goals simp

@[simp] theorem issueStep_frame  :
    (s.issueStep).lines = s.lines ∧
    (s.issueStep).mode = s.mode ∧
    (s.issueStep).policyStaged = s.policyStaged ∧
    (s.issueStep).policyActive = s.policyActive ∧
    (s.issueStep).rsq = s.rsq ∧
    (s.issueStep).rebalStaged = s.rebalStaged ∧
    (s.issueStep).rebalActive = s.rebalActive ∧
    (s.issueStep).rtu = s.rtu ∧
    (s.issueStep).ctu = s.ctu ∧
    (s.issueStep).screenStaged = s.screenStaged ∧
    (s.issueStep).screenActive = s.screenActive ∧
    (s.issueStep).ssc = s.ssc ∧
    (s.issueStep).links = s.links ∧
    (s.issueStep).cli = s.cli ∧
    (s.issueStep).mga = s.mga ∧
    (s.issueStep).settings = s.settings ∧
    (s.issueStep).log = s.log ∧
    (s.issueStep).ps = s.ps ∧
    (s.issueStep).pending = s.pending := by
  simp only [issueStep]
  repeat' split
  all_goals simp

@[simp] theorem confirmContact_frame (p : Port) (c : Contact) :
    (s.confirmContact p c).lines = s.lines ∧
    (s.confirmContact p c).mode = s.mode ∧
    (s.confirmContact p c).policyStaged = s.policyStaged ∧
    (s.confirmContact p c).policyActive = s.policyActive ∧
    (s.confirmContact p c).rsq = s.rsq ∧
    (s.confirmContact p c).rebalStaged = s.rebalStaged ∧
    (s.confirmContact p c).rebalActive = s.rebalActive ∧
    (s.confirmContact p c).rtu = s.rtu ∧
    (s.confirmContact p c).ctu = s.ctu ∧
    (s.confirmContact p c).screenStaged = s.screenStaged ∧
    (s.confirmContact p c).screenActive = s.screenActive ∧
    (s.confirmContact p c).ssc = s.ssc ∧
    (s.confirmContact p c).links = s.links ∧
    (s.confirmContact p c).cli = s.cli ∧
    (s.confirmContact p c).mga = s.mga ∧
    (s.confirmContact p c).settings = s.settings ∧
    (s.confirmContact p c).log = s.log ∧
    (s.confirmContact p c).ps = s.ps ∧
    (s.confirmContact p c).pending = s.pending := by
  simp only [confirmContact]
  repeat' split
  all_goals simp

@[simp] theorem dropWaiting_frame (p : Port) :
    (s.dropWaiting p).lines = s.lines ∧
    (s.dropWaiting p).mode = s.mode ∧
    (s.dropWaiting p).roster = s.roster ∧
    (s.dropWaiting p).policyStaged = s.policyStaged ∧
    (s.dropWaiting p).policyActive = s.policyActive ∧
    (s.dropWaiting p).rsq = s.rsq ∧
    (s.dropWaiting p).rebalStaged = s.rebalStaged ∧
    (s.dropWaiting p).rebalActive = s.rebalActive ∧
    (s.dropWaiting p).rtu = s.rtu ∧
    (s.dropWaiting p).ctu = s.ctu ∧
    (s.dropWaiting p).screenStaged = s.screenStaged ∧
    (s.dropWaiting p).screenActive = s.screenActive ∧
    (s.dropWaiting p).ssc = s.ssc ∧
    (s.dropWaiting p).links = s.links ∧
    (s.dropWaiting p).cli = s.cli ∧
    (s.dropWaiting p).mga = s.mga ∧
    (s.dropWaiting p).settings = s.settings ∧
    (s.dropWaiting p).log = s.log ∧
    (s.dropWaiting p).ps = s.ps ∧
    (s.dropWaiting p).pending = s.pending := by
  simp [dropWaiting]

/-! ### Operations of Machine/Modulation.lean -/

@[simp] theorem referenceStep_frame  :
    (s.referenceStep).lines = s.lines ∧
    (s.referenceStep).mode = s.mode ∧
    (s.referenceStep).roster = s.roster ∧
    (s.referenceStep).policyStaged = s.policyStaged ∧
    (s.referenceStep).policyActive = s.policyActive ∧
    (s.referenceStep).rsq = s.rsq ∧
    (s.referenceStep).bau = s.bau ∧
    (s.referenceStep).rebalStaged = s.rebalStaged ∧
    (s.referenceStep).rebalActive = s.rebalActive ∧
    (s.referenceStep).ctu = s.ctu ∧
    (s.referenceStep).screenStaged = s.screenStaged ∧
    (s.referenceStep).screenActive = s.screenActive ∧
    (s.referenceStep).ssc = s.ssc ∧
    (s.referenceStep).links = s.links ∧
    (s.referenceStep).mga = s.mga ∧
    (s.referenceStep).settings = s.settings ∧
    (s.referenceStep).log = s.log ∧
    (s.referenceStep).ps = s.ps ∧
    (s.referenceStep).pending = s.pending := by
  simp only [referenceStep]
  repeat' split
  all_goals simp

@[simp] theorem storeOutputs_frame (i : Fin 64) (o : Phase → PhaseOut) :
    (s.storeOutputs i o).lines = s.lines ∧
    (s.storeOutputs i o).mode = s.mode ∧
    (s.storeOutputs i o).roster = s.roster ∧
    (s.storeOutputs i o).policyStaged = s.policyStaged ∧
    (s.storeOutputs i o).policyActive = s.policyActive ∧
    (s.storeOutputs i o).rsq = s.rsq ∧
    (s.storeOutputs i o).bau = s.bau ∧
    (s.storeOutputs i o).rebalStaged = s.rebalStaged ∧
    (s.storeOutputs i o).rebalActive = s.rebalActive ∧
    (s.storeOutputs i o).ctu = s.ctu ∧
    (s.storeOutputs i o).screenStaged = s.screenStaged ∧
    (s.storeOutputs i o).screenActive = s.screenActive ∧
    (s.storeOutputs i o).ssc = s.ssc ∧
    (s.storeOutputs i o).links = s.links ∧
    (s.storeOutputs i o).cli = s.cli ∧
    (s.storeOutputs i o).mga = s.mga ∧
    (s.storeOutputs i o).settings = s.settings ∧
    (s.storeOutputs i o).log = s.log ∧
    (s.storeOutputs i o).ps = s.ps ∧
    (s.storeOutputs i o).pending = s.pending := by
  simp [storeOutputs]

@[simp] theorem raiseIf_frame (c : Bool) (f : Flag) :
    (s.raiseIf c f).lines = s.lines ∧
    (s.raiseIf c f).mode = s.mode ∧
    (s.raiseIf c f).roster = s.roster ∧
    (s.raiseIf c f).policyStaged = s.policyStaged ∧
    (s.raiseIf c f).policyActive = s.policyActive ∧
    (s.raiseIf c f).rsq = s.rsq ∧
    (s.raiseIf c f).bau = s.bau ∧
    (s.raiseIf c f).rebalStaged = s.rebalStaged ∧
    (s.raiseIf c f).rebalActive = s.rebalActive ∧
    (s.raiseIf c f).rtu = s.rtu ∧
    (s.raiseIf c f).ctu = s.ctu ∧
    (s.raiseIf c f).screenStaged = s.screenStaged ∧
    (s.raiseIf c f).screenActive = s.screenActive ∧
    (s.raiseIf c f).ssc = s.ssc ∧
    (s.raiseIf c f).links = s.links ∧
    (s.raiseIf c f).mga = s.mga ∧
    (s.raiseIf c f).settings = s.settings ∧
    (s.raiseIf c f).log = s.log ∧
    (s.raiseIf c f).ps = s.ps ∧
    (s.raiseIf c f).pending = s.pending := by
  simp only [raiseIf]
  repeat' split
  all_goals simp

@[simp] theorem computeStep_frame  :
    (s.computeStep).lines = s.lines ∧
    (s.computeStep).mode = s.mode ∧
    (s.computeStep).roster = s.roster ∧
    (s.computeStep).policyStaged = s.policyStaged ∧
    (s.computeStep).policyActive = s.policyActive ∧
    (s.computeStep).rsq = s.rsq ∧
    (s.computeStep).bau = s.bau ∧
    (s.computeStep).rebalStaged = s.rebalStaged ∧
    (s.computeStep).rebalActive = s.rebalActive ∧
    (s.computeStep).ctu = s.ctu ∧
    (s.computeStep).screenStaged = s.screenStaged ∧
    (s.computeStep).screenActive = s.screenActive ∧
    (s.computeStep).ssc = s.ssc ∧
    (s.computeStep).links = s.links ∧
    (s.computeStep).mga = s.mga ∧
    (s.computeStep).settings = s.settings ∧
    (s.computeStep).log = s.log ∧
    (s.computeStep).ps = s.ps ∧
    (s.computeStep).pending = s.pending := by
  simp only [computeStep]
  repeat' split
  all_goals simp

/-! ### Operations of Machine/Alignment.lean -/

@[simp] theorem takeCapture_frame (p : Port) (c : Nat) :
    (s.takeCapture p c).lines = s.lines ∧
    (s.takeCapture p c).mode = s.mode ∧
    (s.takeCapture p c).roster = s.roster ∧
    (s.takeCapture p c).policyStaged = s.policyStaged ∧
    (s.takeCapture p c).policyActive = s.policyActive ∧
    (s.takeCapture p c).rsq = s.rsq ∧
    (s.takeCapture p c).bau = s.bau ∧
    (s.takeCapture p c).rebalStaged = s.rebalStaged ∧
    (s.takeCapture p c).rebalActive = s.rebalActive ∧
    (s.takeCapture p c).rtu = s.rtu ∧
    (s.takeCapture p c).screenStaged = s.screenStaged ∧
    (s.takeCapture p c).screenActive = s.screenActive ∧
    (s.takeCapture p c).ssc = s.ssc ∧
    (s.takeCapture p c).links = s.links ∧
    (s.takeCapture p c).cli = s.cli ∧
    (s.takeCapture p c).mga = s.mga ∧
    (s.takeCapture p c).settings = s.settings ∧
    (s.takeCapture p c).log = s.log ∧
    (s.takeCapture p c).ps = s.ps ∧
    (s.takeCapture p c).pending = s.pending := by
  simp only [takeCapture]
  repeat' split
  all_goals simp

@[simp] theorem planStep_frame  :
    (s.planStep).lines = s.lines ∧
    (s.planStep).mode = s.mode ∧
    (s.planStep).roster = s.roster ∧
    (s.planStep).policyStaged = s.policyStaged ∧
    (s.planStep).policyActive = s.policyActive ∧
    (s.planStep).rsq = s.rsq ∧
    (s.planStep).bau = s.bau ∧
    (s.planStep).rebalStaged = s.rebalStaged ∧
    (s.planStep).rebalActive = s.rebalActive ∧
    (s.planStep).rtu = s.rtu ∧
    (s.planStep).screenStaged = s.screenStaged ∧
    (s.planStep).screenActive = s.screenActive ∧
    (s.planStep).ssc = s.ssc ∧
    (s.planStep).links = s.links ∧
    (s.planStep).cli = s.cli ∧
    (s.planStep).mga = s.mga ∧
    (s.planStep).settings = s.settings ∧
    (s.planStep).log = s.log ∧
    (s.planStep).ps = s.ps ∧
    (s.planStep).pending = s.pending := by
  simp only [planStep]
  repeat' split
  all_goals simp

@[simp] theorem failAlign_frame (p : Port) :
    (s.failAlign p).lines = s.lines ∧
    (s.failAlign p).policyStaged = s.policyStaged ∧
    (s.failAlign p).policyActive = s.policyActive ∧
    (s.failAlign p).rebalStaged = s.rebalStaged ∧
    (s.failAlign p).rebalActive = s.rebalActive ∧
    (s.failAlign p).rtu = s.rtu ∧
    (s.failAlign p).screenStaged = s.screenStaged ∧
    (s.failAlign p).screenActive = s.screenActive ∧
    (s.failAlign p).ssc = s.ssc ∧
    (s.failAlign p).mga = s.mga ∧
    (s.failAlign p).settings = s.settings ∧
    (s.failAlign p).pending = s.pending := by
  simp only [failAlign]
  repeat' split
  all_goals simp

@[simp] theorem foldl_failAlign_frame (l : List Port) :
    (l.foldl failAlign s).lines = s.lines ∧
    (l.foldl failAlign s).policyStaged = s.policyStaged ∧
    (l.foldl failAlign s).policyActive = s.policyActive ∧
    (l.foldl failAlign s).rebalStaged = s.rebalStaged ∧
    (l.foldl failAlign s).rebalActive = s.rebalActive ∧
    (l.foldl failAlign s).rtu = s.rtu ∧
    (l.foldl failAlign s).screenStaged = s.screenStaged ∧
    (l.foldl failAlign s).screenActive = s.screenActive ∧
    (l.foldl failAlign s).ssc = s.ssc ∧
    (l.foldl failAlign s).mga = s.mga ∧
    (l.foldl failAlign s).settings = s.settings ∧
    (l.foldl failAlign s).pending = s.pending := by
  induction l generalizing s with
  | nil => simp
  | cons a l ih =>
    have h := ih (s.failAlign a)
    simpa using h

@[simp] theorem windowStep_frame  :
    (s.windowStep).lines = s.lines ∧
    (s.windowStep).policyStaged = s.policyStaged ∧
    (s.windowStep).policyActive = s.policyActive ∧
    (s.windowStep).rebalStaged = s.rebalStaged ∧
    (s.windowStep).rebalActive = s.rebalActive ∧
    (s.windowStep).rtu = s.rtu ∧
    (s.windowStep).screenStaged = s.screenStaged ∧
    (s.windowStep).screenActive = s.screenActive ∧
    (s.windowStep).ssc = s.ssc ∧
    (s.windowStep).mga = s.mga ∧
    (s.windowStep).settings = s.settings ∧
    (s.windowStep).pending = s.pending := by
  simp only [windowStep]
  repeat' split
  all_goals simp

/-! ### Operations of Machine/Commits.lean -/

@[simp] theorem copyBank_frame (g : Group) :
    (s.copyBank g).lines = s.lines ∧
    (s.copyBank g).mode = s.mode ∧
    (s.copyBank g).roster = s.roster ∧
    (s.copyBank g).policyStaged = s.policyStaged ∧
    (s.copyBank g).rsq = s.rsq ∧
    (s.copyBank g).bau = s.bau ∧
    (s.copyBank g).rebalStaged = s.rebalStaged ∧
    (s.copyBank g).rtu = s.rtu ∧
    (s.copyBank g).ctu = s.ctu ∧
    (s.copyBank g).screenStaged = s.screenStaged ∧
    (s.copyBank g).links = s.links ∧
    (s.copyBank g).cli = s.cli ∧
    (s.copyBank g).mga = s.mga ∧
    (s.copyBank g).settings = s.settings ∧
    (s.copyBank g).log = s.log ∧
    (s.copyBank g).ps = s.ps ∧
    (s.copyBank g).pending = s.pending := by
  simp only [copyBank]
  repeat' split
  all_goals simp

@[simp] theorem foldl_copyBank_frame (l : List Group) :
    (l.foldl copyBank s).lines = s.lines ∧
    (l.foldl copyBank s).mode = s.mode ∧
    (l.foldl copyBank s).roster = s.roster ∧
    (l.foldl copyBank s).policyStaged = s.policyStaged ∧
    (l.foldl copyBank s).rsq = s.rsq ∧
    (l.foldl copyBank s).bau = s.bau ∧
    (l.foldl copyBank s).rebalStaged = s.rebalStaged ∧
    (l.foldl copyBank s).rtu = s.rtu ∧
    (l.foldl copyBank s).ctu = s.ctu ∧
    (l.foldl copyBank s).screenStaged = s.screenStaged ∧
    (l.foldl copyBank s).links = s.links ∧
    (l.foldl copyBank s).cli = s.cli ∧
    (l.foldl copyBank s).mga = s.mga ∧
    (l.foldl copyBank s).settings = s.settings ∧
    (l.foldl copyBank s).log = s.log ∧
    (l.foldl copyBank s).ps = s.ps ∧
    (l.foldl copyBank s).pending = s.pending := by
  induction l generalizing s with
  | nil => simp
  | cons a l ih =>
    have h := ih (s.copyBank a)
    simpa using h

@[simp] theorem copyBanks_frame (gs : List Group) :
    (s.copyBanks gs).lines = s.lines ∧
    (s.copyBanks gs).mode = s.mode ∧
    (s.copyBanks gs).roster = s.roster ∧
    (s.copyBanks gs).policyStaged = s.policyStaged ∧
    (s.copyBanks gs).rsq = s.rsq ∧
    (s.copyBanks gs).bau = s.bau ∧
    (s.copyBanks gs).rebalStaged = s.rebalStaged ∧
    (s.copyBanks gs).rtu = s.rtu ∧
    (s.copyBanks gs).ctu = s.ctu ∧
    (s.copyBanks gs).screenStaged = s.screenStaged ∧
    (s.copyBanks gs).links = s.links ∧
    (s.copyBanks gs).mga = s.mga ∧
    (s.copyBanks gs).settings = s.settings ∧
    (s.copyBanks gs).log = s.log ∧
    (s.copyBanks gs).ps = s.ps ∧
    (s.copyBanks gs).pending = s.pending := by
  simp [copyBanks]

@[simp] theorem applyRecovery_frame  :
    (s.applyRecovery).lines = s.lines ∧
    (s.applyRecovery).mode = s.mode ∧
    (s.applyRecovery).roster = s.roster ∧
    (s.applyRecovery).policyStaged = s.policyStaged ∧
    (s.applyRecovery).rsq = s.rsq ∧
    (s.applyRecovery).bau = s.bau ∧
    (s.applyRecovery).rebalStaged = s.rebalStaged ∧
    (s.applyRecovery).rtu = s.rtu ∧
    (s.applyRecovery).ctu = s.ctu ∧
    (s.applyRecovery).screenStaged = s.screenStaged ∧
    (s.applyRecovery).links = s.links ∧
    (s.applyRecovery).settings = s.settings ∧
    (s.applyRecovery).log = s.log ∧
    (s.applyRecovery).ps = s.ps ∧
    (s.applyRecovery).pending = s.pending := by
  simp [applyRecovery]

@[simp] theorem commitStep_frame  :
    (s.commitStep).lines = s.lines ∧
    (s.commitStep).mode = s.mode ∧
    (s.commitStep).roster = s.roster ∧
    (s.commitStep).policyStaged = s.policyStaged ∧
    (s.commitStep).rsq = s.rsq ∧
    (s.commitStep).bau = s.bau ∧
    (s.commitStep).rebalStaged = s.rebalStaged ∧
    (s.commitStep).rtu = s.rtu ∧
    (s.commitStep).ctu = s.ctu ∧
    (s.commitStep).screenStaged = s.screenStaged ∧
    (s.commitStep).links = s.links ∧
    (s.commitStep).settings = s.settings ∧
    (s.commitStep).log = s.log ∧
    (s.commitStep).ps = s.ps ∧
    (s.commitStep).pending = s.pending := by
  simp only [commitStep]
  repeat' split
  all_goals simp

/-! ### Operations of Machine/Sequencing.lean -/

@[simp] theorem gapStep_frame  :
    (s.gapStep).lines = s.lines ∧
    (s.gapStep).mode = s.mode ∧
    (s.gapStep).roster = s.roster ∧
    (s.gapStep).policyStaged = s.policyStaged ∧
    (s.gapStep).policyActive = s.policyActive ∧
    (s.gapStep).bau = s.bau ∧
    (s.gapStep).rebalStaged = s.rebalStaged ∧
    (s.gapStep).rebalActive = s.rebalActive ∧
    (s.gapStep).rtu = s.rtu ∧
    (s.gapStep).ctu = s.ctu ∧
    (s.gapStep).screenStaged = s.screenStaged ∧
    (s.gapStep).screenActive = s.screenActive ∧
    (s.gapStep).ssc = s.ssc ∧
    (s.gapStep).links = s.links ∧
    (s.gapStep).cli = s.cli ∧
    (s.gapStep).mga = s.mga ∧
    (s.gapStep).settings = s.settings ∧
    (s.gapStep).log = s.log ∧
    (s.gapStep).ps = s.ps ∧
    (s.gapStep).pending = s.pending := by
  simp only [gapStep]
  repeat' split
  all_goals simp

@[simp] theorem enterIsolate_frame  :
    (s.enterIsolate).lines = s.lines ∧
    (s.enterIsolate).mode = s.mode ∧
    (s.enterIsolate).policyStaged = s.policyStaged ∧
    (s.enterIsolate).policyActive = s.policyActive ∧
    (s.enterIsolate).rebalStaged = s.rebalStaged ∧
    (s.enterIsolate).rebalActive = s.rebalActive ∧
    (s.enterIsolate).rtu = s.rtu ∧
    (s.enterIsolate).ctu = s.ctu ∧
    (s.enterIsolate).screenStaged = s.screenStaged ∧
    (s.enterIsolate).screenActive = s.screenActive ∧
    (s.enterIsolate).ssc = s.ssc ∧
    (s.enterIsolate).links = s.links ∧
    (s.enterIsolate).cli = s.cli ∧
    (s.enterIsolate).mga = s.mga ∧
    (s.enterIsolate).settings = s.settings ∧
    (s.enterIsolate).log = s.log ∧
    (s.enterIsolate).ps = s.ps ∧
    (s.enterIsolate).pending = s.pending := by
  simp [enterIsolate]

@[simp] theorem inhibitProgress_frame  :
    (s.inhibitProgress).lines = s.lines ∧
    (s.inhibitProgress).mode = s.mode ∧
    (s.inhibitProgress).policyStaged = s.policyStaged ∧
    (s.inhibitProgress).policyActive = s.policyActive ∧
    (s.inhibitProgress).rebalStaged = s.rebalStaged ∧
    (s.inhibitProgress).rebalActive = s.rebalActive ∧
    (s.inhibitProgress).rtu = s.rtu ∧
    (s.inhibitProgress).ctu = s.ctu ∧
    (s.inhibitProgress).screenStaged = s.screenStaged ∧
    (s.inhibitProgress).screenActive = s.screenActive ∧
    (s.inhibitProgress).ssc = s.ssc ∧
    (s.inhibitProgress).links = s.links ∧
    (s.inhibitProgress).cli = s.cli ∧
    (s.inhibitProgress).mga = s.mga ∧
    (s.inhibitProgress).settings = s.settings ∧
    (s.inhibitProgress).log = s.log ∧
    (s.inhibitProgress).ps = s.ps ∧
    (s.inhibitProgress).pending = s.pending := by
  simp only [inhibitProgress]
  repeat' split
  all_goals simp

@[simp] theorem enterRemap_frame  :
    (s.enterRemap).lines = s.lines ∧
    (s.enterRemap).mode = s.mode ∧
    (s.enterRemap).roster = s.roster ∧
    (s.enterRemap).policyStaged = s.policyStaged ∧
    (s.enterRemap).policyActive = s.policyActive ∧
    (s.enterRemap).bau = s.bau ∧
    (s.enterRemap).rebalStaged = s.rebalStaged ∧
    (s.enterRemap).rebalActive = s.rebalActive ∧
    (s.enterRemap).rtu = s.rtu ∧
    (s.enterRemap).ctu = s.ctu ∧
    (s.enterRemap).screenStaged = s.screenStaged ∧
    (s.enterRemap).screenActive = s.screenActive ∧
    (s.enterRemap).ssc = s.ssc ∧
    (s.enterRemap).links = s.links ∧
    (s.enterRemap).cli = s.cli ∧
    (s.enterRemap).mga = s.mga ∧
    (s.enterRemap).settings = s.settings ∧
    (s.enterRemap).log = s.log ∧
    (s.enterRemap).ps = s.ps ∧
    (s.enterRemap).pending = s.pending := by
  simp [enterRemap]

@[simp] theorem enterAlign_frame  :
    (s.enterAlign).lines = s.lines ∧
    (s.enterAlign).mode = s.mode ∧
    (s.enterAlign).roster = s.roster ∧
    (s.enterAlign).policyStaged = s.policyStaged ∧
    (s.enterAlign).policyActive = s.policyActive ∧
    (s.enterAlign).bau = s.bau ∧
    (s.enterAlign).rebalStaged = s.rebalStaged ∧
    (s.enterAlign).rebalActive = s.rebalActive ∧
    (s.enterAlign).rtu = s.rtu ∧
    (s.enterAlign).screenStaged = s.screenStaged ∧
    (s.enterAlign).screenActive = s.screenActive ∧
    (s.enterAlign).ssc = s.ssc ∧
    (s.enterAlign).links = s.links ∧
    (s.enterAlign).cli = s.cli ∧
    (s.enterAlign).mga = s.mga ∧
    (s.enterAlign).settings = s.settings ∧
    (s.enterAlign).log = s.log ∧
    (s.enterAlign).ps = s.ps ∧
    (s.enterAlign).pending = s.pending := by
  simp [enterAlign]

@[simp] theorem foldl_makeIsolating_frame (l : List Port) :
    (l.foldl makeIsolating s).lines = s.lines ∧
    (l.foldl makeIsolating s).mode = s.mode ∧
    (l.foldl makeIsolating s).policyStaged = s.policyStaged ∧
    (l.foldl makeIsolating s).policyActive = s.policyActive ∧
    (l.foldl makeIsolating s).rsq = s.rsq ∧
    (l.foldl makeIsolating s).rebalStaged = s.rebalStaged ∧
    (l.foldl makeIsolating s).rebalActive = s.rebalActive ∧
    (l.foldl makeIsolating s).rtu = s.rtu ∧
    (l.foldl makeIsolating s).ctu = s.ctu ∧
    (l.foldl makeIsolating s).screenStaged = s.screenStaged ∧
    (l.foldl makeIsolating s).screenActive = s.screenActive ∧
    (l.foldl makeIsolating s).ssc = s.ssc ∧
    (l.foldl makeIsolating s).links = s.links ∧
    (l.foldl makeIsolating s).cli = s.cli ∧
    (l.foldl makeIsolating s).mga = s.mga ∧
    (l.foldl makeIsolating s).settings = s.settings ∧
    (l.foldl makeIsolating s).log = s.log ∧
    (l.foldl makeIsolating s).ps = s.ps ∧
    (l.foldl makeIsolating s).pending = s.pending := by
  induction l generalizing s with
  | nil => simp
  | cons a l ih =>
    have h := ih (s.makeIsolating a)
    simpa using h

@[simp] theorem acceptDeferred_frame (ps : List Port) :
    (s.acceptDeferred ps).lines = s.lines ∧
    (s.acceptDeferred ps).policyStaged = s.policyStaged ∧
    (s.acceptDeferred ps).policyActive = s.policyActive ∧
    (s.acceptDeferred ps).rebalStaged = s.rebalStaged ∧
    (s.acceptDeferred ps).rebalActive = s.rebalActive ∧
    (s.acceptDeferred ps).rtu = s.rtu ∧
    (s.acceptDeferred ps).screenStaged = s.screenStaged ∧
    (s.acceptDeferred ps).screenActive = s.screenActive ∧
    (s.acceptDeferred ps).ssc = s.ssc ∧
    (s.acceptDeferred ps).mga = s.mga ∧
    (s.acceptDeferred ps).settings = s.settings ∧
    (s.acceptDeferred ps).pending = s.pending := by
  simp only [acceptDeferred]
  repeat' split
  all_goals simp

@[simp] theorem remapCompletion_frame  :
    (s.remapCompletion).lines = s.lines ∧
    (s.remapCompletion).policyStaged = s.policyStaged ∧
    (s.remapCompletion).rebalStaged = s.rebalStaged ∧
    (s.remapCompletion).rtu = s.rtu ∧
    (s.remapCompletion).screenStaged = s.screenStaged ∧
    (s.remapCompletion).settings = s.settings ∧
    (s.remapCompletion).pending = s.pending := by
  simp only [remapCompletion]
  repeat' split
  all_goals simp

@[simp] theorem enterAwaitGrant_frame  :
    (s.enterAwaitGrant).lines = s.lines ∧
    (s.enterAwaitGrant).mode = s.mode ∧
    (s.enterAwaitGrant).roster = s.roster ∧
    (s.enterAwaitGrant).policyStaged = s.policyStaged ∧
    (s.enterAwaitGrant).policyActive = s.policyActive ∧
    (s.enterAwaitGrant).bau = s.bau ∧
    (s.enterAwaitGrant).rebalStaged = s.rebalStaged ∧
    (s.enterAwaitGrant).rebalActive = s.rebalActive ∧
    (s.enterAwaitGrant).rtu = s.rtu ∧
    (s.enterAwaitGrant).screenStaged = s.screenStaged ∧
    (s.enterAwaitGrant).screenActive = s.screenActive ∧
    (s.enterAwaitGrant).ssc = s.ssc ∧
    (s.enterAwaitGrant).links = s.links ∧
    (s.enterAwaitGrant).cli = s.cli ∧
    (s.enterAwaitGrant).mga = s.mga ∧
    (s.enterAwaitGrant).settings = s.settings ∧
    (s.enterAwaitGrant).log = s.log ∧
    (s.enterAwaitGrant).ps = s.ps ∧
    (s.enterAwaitGrant).pending = s.pending := by
  simp [enterAwaitGrant]

@[simp] theorem enterResume_frame  :
    (s.enterResume).lines = s.lines ∧
    (s.enterResume).mode = s.mode ∧
    (s.enterResume).roster = s.roster ∧
    (s.enterResume).policyStaged = s.policyStaged ∧
    (s.enterResume).policyActive = s.policyActive ∧
    (s.enterResume).bau = s.bau ∧
    (s.enterResume).rebalStaged = s.rebalStaged ∧
    (s.enterResume).rebalActive = s.rebalActive ∧
    (s.enterResume).rtu = s.rtu ∧
    (s.enterResume).ctu = s.ctu ∧
    (s.enterResume).screenStaged = s.screenStaged ∧
    (s.enterResume).screenActive = s.screenActive ∧
    (s.enterResume).ssc = s.ssc ∧
    (s.enterResume).links = s.links ∧
    (s.enterResume).cli = s.cli ∧
    (s.enterResume).mga = s.mga ∧
    (s.enterResume).settings = s.settings ∧
    (s.enterResume).log = s.log ∧
    (s.enterResume).ps = s.ps ∧
    (s.enterResume).pending = s.pending := by
  simp [enterResume]

@[simp] theorem endResume_frame  :
    (s.endResume).lines = s.lines ∧
    (s.endResume).mode = s.mode ∧
    (s.endResume).roster = s.roster ∧
    (s.endResume).policyStaged = s.policyStaged ∧
    (s.endResume).policyActive = s.policyActive ∧
    (s.endResume).bau = s.bau ∧
    (s.endResume).rebalStaged = s.rebalStaged ∧
    (s.endResume).rebalActive = s.rebalActive ∧
    (s.endResume).rtu = s.rtu ∧
    (s.endResume).ctu = s.ctu ∧
    (s.endResume).screenStaged = s.screenStaged ∧
    (s.endResume).screenActive = s.screenActive ∧
    (s.endResume).ssc = s.ssc ∧
    (s.endResume).links = s.links ∧
    (s.endResume).mga = s.mga ∧
    (s.endResume).settings = s.settings ∧
    (s.endResume).ps = s.ps ∧
    (s.endResume).pending = s.pending := by
  simp only [endResume]
  repeat' split
  all_goals simp

@[simp] theorem resumeProgress_frame  :
    (s.resumeProgress).lines = s.lines ∧
    (s.resumeProgress).mode = s.mode ∧
    (s.resumeProgress).roster = s.roster ∧
    (s.resumeProgress).policyStaged = s.policyStaged ∧
    (s.resumeProgress).policyActive = s.policyActive ∧
    (s.resumeProgress).bau = s.bau ∧
    (s.resumeProgress).rebalStaged = s.rebalStaged ∧
    (s.resumeProgress).rebalActive = s.rebalActive ∧
    (s.resumeProgress).rtu = s.rtu ∧
    (s.resumeProgress).ctu = s.ctu ∧
    (s.resumeProgress).screenStaged = s.screenStaged ∧
    (s.resumeProgress).screenActive = s.screenActive ∧
    (s.resumeProgress).ssc = s.ssc ∧
    (s.resumeProgress).links = s.links ∧
    (s.resumeProgress).mga = s.mga ∧
    (s.resumeProgress).settings = s.settings ∧
    (s.resumeProgress).ps = s.ps ∧
    (s.resumeProgress).pending = s.pending := by
  simp only [resumeProgress]
  repeat' split
  all_goals simp

@[simp] theorem stageProgress_frame  :
    (s.stageProgress).lines = s.lines ∧
    (s.stageProgress).policyStaged = s.policyStaged ∧
    (s.stageProgress).rebalStaged = s.rebalStaged ∧
    (s.stageProgress).rtu = s.rtu ∧
    (s.stageProgress).screenStaged = s.screenStaged ∧
    (s.stageProgress).settings = s.settings ∧
    (s.stageProgress).pending = s.pending := by
  simp only [stageProgress]
  repeat' split
  all_goals simp

@[simp] theorem sequencerStep_frame  :
    (s.sequencerStep).lines = s.lines ∧
    (s.sequencerStep).policyStaged = s.policyStaged ∧
    (s.sequencerStep).rebalStaged = s.rebalStaged ∧
    (s.sequencerStep).rtu = s.rtu ∧
    (s.sequencerStep).screenStaged = s.screenStaged ∧
    (s.sequencerStep).settings = s.settings ∧
    (s.sequencerStep).pending = s.pending := by
  simp only [sequencerStep]
  repeat' split
  all_goals simp

/-! ### Operations of Machine/Screening.lean -/

@[simp] theorem countHit_frame (i : Fin 16) :
    (s.countHit i).lines = s.lines ∧
    (s.countHit i).mode = s.mode ∧
    (s.countHit i).roster = s.roster ∧
    (s.countHit i).policyStaged = s.policyStaged ∧
    (s.countHit i).policyActive = s.policyActive ∧
    (s.countHit i).rsq = s.rsq ∧
    (s.countHit i).bau = s.bau ∧
    (s.countHit i).rebalStaged = s.rebalStaged ∧
    (s.countHit i).rebalActive = s.rebalActive ∧
    (s.countHit i).rtu = s.rtu ∧
    (s.countHit i).ctu = s.ctu ∧
    (s.countHit i).screenStaged = s.screenStaged ∧
    (s.countHit i).screenActive = s.screenActive ∧
    (s.countHit i).links = s.links ∧
    (s.countHit i).cli = s.cli ∧
    (s.countHit i).mga = s.mga ∧
    (s.countHit i).settings = s.settings ∧
    (s.countHit i).log = s.log ∧
    (s.countHit i).ps = s.ps ∧
    (s.countHit i).pending = s.pending := by
  simp [countHit]

@[simp] theorem noteWord_frame (p : Port) :
    (s.noteWord p).lines = s.lines ∧
    (s.noteWord p).mode = s.mode ∧
    (s.noteWord p).policyStaged = s.policyStaged ∧
    (s.noteWord p).policyActive = s.policyActive ∧
    (s.noteWord p).rsq = s.rsq ∧
    (s.noteWord p).bau = s.bau ∧
    (s.noteWord p).rebalStaged = s.rebalStaged ∧
    (s.noteWord p).rebalActive = s.rebalActive ∧
    (s.noteWord p).rtu = s.rtu ∧
    (s.noteWord p).ctu = s.ctu ∧
    (s.noteWord p).screenStaged = s.screenStaged ∧
    (s.noteWord p).screenActive = s.screenActive ∧
    (s.noteWord p).ssc = s.ssc ∧
    (s.noteWord p).links = s.links ∧
    (s.noteWord p).mga = s.mga ∧
    (s.noteWord p).settings = s.settings ∧
    (s.noteWord p).log = s.log ∧
    (s.noteWord p).ps = s.ps ∧
    (s.noteWord p).pending = s.pending := by
  simp [noteWord]

@[simp] theorem clipWord_frame (p : Port) (w : Half) (i : Fin 16) (late : Bool) :
    (s.clipWord p w i late).lines = s.lines ∧
    (s.clipWord p w i late).policyStaged = s.policyStaged ∧
    (s.clipWord p w i late).policyActive = s.policyActive ∧
    (s.clipWord p w i late).rebalStaged = s.rebalStaged ∧
    (s.clipWord p w i late).rebalActive = s.rebalActive ∧
    (s.clipWord p w i late).rtu = s.rtu ∧
    (s.clipWord p w i late).screenStaged = s.screenStaged ∧
    (s.clipWord p w i late).screenActive = s.screenActive ∧
    (s.clipWord p w i late).mga = s.mga ∧
    (s.clipWord p w i late).settings = s.settings ∧
    (s.clipWord p w i late).pending = s.pending := by
  simp only [clipWord]
  repeat' split
  all_goals simp

@[simp] theorem tripWord_frame (p : Port) (w : Half) (i : Fin 16) :
    (s.tripWord p w i).lines = s.lines ∧
    (s.tripWord p w i).policyStaged = s.policyStaged ∧
    (s.tripWord p w i).policyActive = s.policyActive ∧
    (s.tripWord p w i).rebalStaged = s.rebalStaged ∧
    (s.tripWord p w i).rebalActive = s.rebalActive ∧
    (s.tripWord p w i).rtu = s.rtu ∧
    (s.tripWord p w i).screenStaged = s.screenStaged ∧
    (s.tripWord p w i).screenActive = s.screenActive ∧
    (s.tripWord p w i).ssc = s.ssc ∧
    (s.tripWord p w i).mga = s.mga ∧
    (s.tripWord p w i).settings = s.settings ∧
    (s.tripWord p w i).pending = s.pending := by
  simp only [tripWord]
  repeat' split
  all_goals simp

@[simp] theorem applyAction_frame (p : Port) (w : Half) (i : Fin 16) (a : Action) (late : Bool) :
    (s.applyAction p w i a late).lines = s.lines ∧
    (s.applyAction p w i a late).policyStaged = s.policyStaged ∧
    (s.applyAction p w i a late).policyActive = s.policyActive ∧
    (s.applyAction p w i a late).rebalStaged = s.rebalStaged ∧
    (s.applyAction p w i a late).rebalActive = s.rebalActive ∧
    (s.applyAction p w i a late).rtu = s.rtu ∧
    (s.applyAction p w i a late).screenStaged = s.screenStaged ∧
    (s.applyAction p w i a late).screenActive = s.screenActive ∧
    (s.applyAction p w i a late).mga = s.mga ∧
    (s.applyAction p w i a late).settings = s.settings ∧
    (s.applyAction p w i a late).pending = s.pending := by
  simp only [applyAction]
  repeat' split
  all_goals simp

@[simp] theorem screenWord_frame (p : Port) (w : Half) (late : Bool) :
    (s.screenWord p w late).lines = s.lines ∧
    (s.screenWord p w late).policyStaged = s.policyStaged ∧
    (s.screenWord p w late).policyActive = s.policyActive ∧
    (s.screenWord p w late).rebalStaged = s.rebalStaged ∧
    (s.screenWord p w late).rebalActive = s.rebalActive ∧
    (s.screenWord p w late).rtu = s.rtu ∧
    (s.screenWord p w late).screenStaged = s.screenStaged ∧
    (s.screenWord p w late).screenActive = s.screenActive ∧
    (s.screenWord p w late).mga = s.mga ∧
    (s.screenWord p w late).settings = s.settings ∧
    (s.screenWord p w late).pending = s.pending := by
  simp only [screenWord]
  repeat' split
  all_goals simp

@[simp] theorem leakStep_frame  :
    (s.leakStep).lines = s.lines ∧
    (s.leakStep).mode = s.mode ∧
    (s.leakStep).policyStaged = s.policyStaged ∧
    (s.leakStep).policyActive = s.policyActive ∧
    (s.leakStep).rsq = s.rsq ∧
    (s.leakStep).bau = s.bau ∧
    (s.leakStep).rebalStaged = s.rebalStaged ∧
    (s.leakStep).rebalActive = s.rebalActive ∧
    (s.leakStep).rtu = s.rtu ∧
    (s.leakStep).ctu = s.ctu ∧
    (s.leakStep).screenStaged = s.screenStaged ∧
    (s.leakStep).screenActive = s.screenActive ∧
    (s.leakStep).links = s.links ∧
    (s.leakStep).cli = s.cli ∧
    (s.leakStep).mga = s.mga ∧
    (s.leakStep).settings = s.settings ∧
    (s.leakStep).log = s.log ∧
    (s.leakStep).ps = s.ps ∧
    (s.leakStep).pending = s.pending := by
  simp only [leakStep]
  repeat' split
  all_goals simp

/-! ### Operations of Machine/Ports.lean -/

@[simp] theorem loseIsolating_frame (p : Port) :
    (s.loseIsolating p).lines = s.lines ∧
    (s.loseIsolating p).policyStaged = s.policyStaged ∧
    (s.loseIsolating p).policyActive = s.policyActive ∧
    (s.loseIsolating p).rebalStaged = s.rebalStaged ∧
    (s.loseIsolating p).rebalActive = s.rebalActive ∧
    (s.loseIsolating p).rtu = s.rtu ∧
    (s.loseIsolating p).screenStaged = s.screenStaged ∧
    (s.loseIsolating p).screenActive = s.screenActive ∧
    (s.loseIsolating p).ssc = s.ssc ∧
    (s.loseIsolating p).mga = s.mga ∧
    (s.loseIsolating p).settings = s.settings ∧
    (s.loseIsolating p).pending = s.pending := by
  simp only [loseIsolating]
  repeat' split
  all_goals simp

@[simp] theorem loseCell_frame (p : Port) :
    (s.loseCell p).lines = s.lines ∧
    (s.loseCell p).policyStaged = s.policyStaged ∧
    (s.loseCell p).policyActive = s.policyActive ∧
    (s.loseCell p).rebalStaged = s.rebalStaged ∧
    (s.loseCell p).rebalActive = s.rebalActive ∧
    (s.loseCell p).rtu = s.rtu ∧
    (s.loseCell p).screenStaged = s.screenStaged ∧
    (s.loseCell p).screenActive = s.screenActive ∧
    (s.loseCell p).ssc = s.ssc ∧
    (s.loseCell p).mga = s.mga ∧
    (s.loseCell p).settings = s.settings ∧
    (s.loseCell p).pending = s.pending := by
  simp only [loseCell]
  repeat' split
  all_goals simp

@[simp] theorem enterLost_frame (p : Port) :
    (s.enterLost p).lines = s.lines ∧
    (s.enterLost p).policyStaged = s.policyStaged ∧
    (s.enterLost p).policyActive = s.policyActive ∧
    (s.enterLost p).rebalStaged = s.rebalStaged ∧
    (s.enterLost p).rebalActive = s.rebalActive ∧
    (s.enterLost p).rtu = s.rtu ∧
    (s.enterLost p).screenStaged = s.screenStaged ∧
    (s.enterLost p).screenActive = s.screenActive ∧
    (s.enterLost p).ssc = s.ssc ∧
    (s.enterLost p).mga = s.mga ∧
    (s.enterLost p).settings = s.settings ∧
    (s.enterLost p).pending = s.pending := by
  simp [enterLost]

@[simp] theorem countPort_frame (p : Port) :
    (s.countPort p).lines = s.lines ∧
    (s.countPort p).mode = s.mode ∧
    (s.countPort p).roster = s.roster ∧
    (s.countPort p).policyStaged = s.policyStaged ∧
    (s.countPort p).policyActive = s.policyActive ∧
    (s.countPort p).rsq = s.rsq ∧
    (s.countPort p).bau = s.bau ∧
    (s.countPort p).rebalStaged = s.rebalStaged ∧
    (s.countPort p).rebalActive = s.rebalActive ∧
    (s.countPort p).rtu = s.rtu ∧
    (s.countPort p).ctu = s.ctu ∧
    (s.countPort p).screenStaged = s.screenStaged ∧
    (s.countPort p).screenActive = s.screenActive ∧
    (s.countPort p).ssc = s.ssc ∧
    (s.countPort p).cli = s.cli ∧
    (s.countPort p).mga = s.mga ∧
    (s.countPort p).settings = s.settings ∧
    (s.countPort p).log = s.log ∧
    (s.countPort p).ps = s.ps ∧
    (s.countPort p).pending = s.pending := by
  simp only [countPort]
  repeat' split
  all_goals simp

@[simp] theorem judgePort_frame (p : Port) :
    (s.judgePort p).lines = s.lines ∧
    (s.judgePort p).policyStaged = s.policyStaged ∧
    (s.judgePort p).policyActive = s.policyActive ∧
    (s.judgePort p).rebalStaged = s.rebalStaged ∧
    (s.judgePort p).rebalActive = s.rebalActive ∧
    (s.judgePort p).rtu = s.rtu ∧
    (s.judgePort p).screenStaged = s.screenStaged ∧
    (s.judgePort p).screenActive = s.screenActive ∧
    (s.judgePort p).ssc = s.ssc ∧
    (s.judgePort p).mga = s.mga ∧
    (s.judgePort p).settings = s.settings ∧
    (s.judgePort p).pending = s.pending := by
  simp only [judgePort]
  repeat' split
  all_goals simp

@[simp] theorem foldl_judgePort_frame (l : List Port) :
    (l.foldl judgePort s).lines = s.lines ∧
    (l.foldl judgePort s).policyStaged = s.policyStaged ∧
    (l.foldl judgePort s).policyActive = s.policyActive ∧
    (l.foldl judgePort s).rebalStaged = s.rebalStaged ∧
    (l.foldl judgePort s).rebalActive = s.rebalActive ∧
    (l.foldl judgePort s).rtu = s.rtu ∧
    (l.foldl judgePort s).screenStaged = s.screenStaged ∧
    (l.foldl judgePort s).screenActive = s.screenActive ∧
    (l.foldl judgePort s).ssc = s.ssc ∧
    (l.foldl judgePort s).mga = s.mga ∧
    (l.foldl judgePort s).settings = s.settings ∧
    (l.foldl judgePort s).pending = s.pending := by
  induction l generalizing s with
  | nil => simp
  | cons a l ih =>
    have h := ih (s.judgePort a)
    simpa using h

@[simp] theorem linksStep_frame  :
    (s.linksStep).lines = s.lines ∧
    (s.linksStep).policyStaged = s.policyStaged ∧
    (s.linksStep).policyActive = s.policyActive ∧
    (s.linksStep).rebalStaged = s.rebalStaged ∧
    (s.linksStep).rebalActive = s.rebalActive ∧
    (s.linksStep).rtu = s.rtu ∧
    (s.linksStep).screenStaged = s.screenStaged ∧
    (s.linksStep).screenActive = s.screenActive ∧
    (s.linksStep).ssc = s.ssc ∧
    (s.linksStep).mga = s.mga ∧
    (s.linksStep).settings = s.settings ∧
    (s.linksStep).pending = s.pending := by
  simp [linksStep]

@[simp] theorem composeStep_frame  :
    (s.composeStep).lines = s.lines ∧
    (s.composeStep).mode = s.mode ∧
    (s.composeStep).roster = s.roster ∧
    (s.composeStep).policyStaged = s.policyStaged ∧
    (s.composeStep).policyActive = s.policyActive ∧
    (s.composeStep).rsq = s.rsq ∧
    (s.composeStep).bau = s.bau ∧
    (s.composeStep).rebalStaged = s.rebalStaged ∧
    (s.composeStep).rebalActive = s.rebalActive ∧
    (s.composeStep).rtu = s.rtu ∧
    (s.composeStep).ctu = s.ctu ∧
    (s.composeStep).screenStaged = s.screenStaged ∧
    (s.composeStep).screenActive = s.screenActive ∧
    (s.composeStep).ssc = s.ssc ∧
    (s.composeStep).cli = s.cli ∧
    (s.composeStep).mga = s.mga ∧
    (s.composeStep).settings = s.settings ∧
    (s.composeStep).log = s.log ∧
    (s.composeStep).ps = s.ps ∧
    (s.composeStep).pending = s.pending := by
  simp [composeStep]

@[simp] theorem recordStatus_frame (p : Port) (f : StsFrame) :
    (s.recordStatus p f).lines = s.lines ∧
    (s.recordStatus p f).mode = s.mode ∧
    (s.recordStatus p f).policyStaged = s.policyStaged ∧
    (s.recordStatus p f).policyActive = s.policyActive ∧
    (s.recordStatus p f).rsq = s.rsq ∧
    (s.recordStatus p f).bau = s.bau ∧
    (s.recordStatus p f).rebalStaged = s.rebalStaged ∧
    (s.recordStatus p f).rebalActive = s.rebalActive ∧
    (s.recordStatus p f).rtu = s.rtu ∧
    (s.recordStatus p f).ctu = s.ctu ∧
    (s.recordStatus p f).screenStaged = s.screenStaged ∧
    (s.recordStatus p f).screenActive = s.screenActive ∧
    (s.recordStatus p f).ssc = s.ssc ∧
    (s.recordStatus p f).links = s.links ∧
    (s.recordStatus p f).cli = s.cli ∧
    (s.recordStatus p f).mga = s.mga ∧
    (s.recordStatus p f).settings = s.settings ∧
    (s.recordStatus p f).log = s.log ∧
    (s.recordStatus p f).ps = s.ps ∧
    (s.recordStatus p f).pending = s.pending := by
  simp [recordStatus]

@[simp] theorem acceptSts_frame (p : Port) (f : StsFrame) (late : Bool) :
    (s.acceptSts p f late).lines = s.lines ∧
    (s.acceptSts p f late).policyStaged = s.policyStaged ∧
    (s.acceptSts p f late).policyActive = s.policyActive ∧
    (s.acceptSts p f late).rebalStaged = s.rebalStaged ∧
    (s.acceptSts p f late).rebalActive = s.rebalActive ∧
    (s.acceptSts p f late).rtu = s.rtu ∧
    (s.acceptSts p f late).screenStaged = s.screenStaged ∧
    (s.acceptSts p f late).screenActive = s.screenActive ∧
    (s.acceptSts p f late).mga = s.mga ∧
    (s.acceptSts p f late).settings = s.settings ∧
    (s.acceptSts p f late).pending = s.pending := by
  simp [acceptSts]

@[simp] theorem receiveSts_frame (p : Port) (bytes : List Byte) (late : Bool) :
    (s.receiveSts p bytes late).lines = s.lines ∧
    (s.receiveSts p bytes late).policyStaged = s.policyStaged ∧
    (s.receiveSts p bytes late).policyActive = s.policyActive ∧
    (s.receiveSts p bytes late).rebalStaged = s.rebalStaged ∧
    (s.receiveSts p bytes late).rebalActive = s.rebalActive ∧
    (s.receiveSts p bytes late).rtu = s.rtu ∧
    (s.receiveSts p bytes late).screenStaged = s.screenStaged ∧
    (s.receiveSts p bytes late).screenActive = s.screenActive ∧
    (s.receiveSts p bytes late).mga = s.mga ∧
    (s.receiveSts p bytes late).settings = s.settings ∧
    (s.receiveSts p bytes late).pending = s.pending := by
  simp only [receiveSts]
  repeat' split
  all_goals simp

/-! ### Operations of Machine/Traffic.lean -/

@[simp] theorem placeDigest_frame  :
    (s.placeDigest).lines = s.lines ∧
    (s.placeDigest).mode = s.mode ∧
    (s.placeDigest).roster = s.roster ∧
    (s.placeDigest).policyStaged = s.policyStaged ∧
    (s.placeDigest).policyActive = s.policyActive ∧
    (s.placeDigest).rsq = s.rsq ∧
    (s.placeDigest).bau = s.bau ∧
    (s.placeDigest).rebalStaged = s.rebalStaged ∧
    (s.placeDigest).rebalActive = s.rebalActive ∧
    (s.placeDigest).rtu = s.rtu ∧
    (s.placeDigest).ctu = s.ctu ∧
    (s.placeDigest).screenStaged = s.screenStaged ∧
    (s.placeDigest).screenActive = s.screenActive ∧
    (s.placeDigest).ssc = s.ssc ∧
    (s.placeDigest).links = s.links ∧
    (s.placeDigest).mga = s.mga ∧
    (s.placeDigest).settings = s.settings ∧
    (s.placeDigest).log = s.log ∧
    (s.placeDigest).ps = s.ps ∧
    (s.placeDigest).pending = s.pending := by
  simp [placeDigest]

@[simp] theorem takeMotion_frame (code : BitVec 3) :
    (s.takeMotion code).lines = s.lines ∧
    (s.takeMotion code).mode = s.mode ∧
    (s.takeMotion code).roster = s.roster ∧
    (s.takeMotion code).policyStaged = s.policyStaged ∧
    (s.takeMotion code).policyActive = s.policyActive ∧
    (s.takeMotion code).rsq = s.rsq ∧
    (s.takeMotion code).bau = s.bau ∧
    (s.takeMotion code).rebalStaged = s.rebalStaged ∧
    (s.takeMotion code).rebalActive = s.rebalActive ∧
    (s.takeMotion code).rtu = s.rtu ∧
    (s.takeMotion code).ctu = s.ctu ∧
    (s.takeMotion code).screenStaged = s.screenStaged ∧
    (s.takeMotion code).screenActive = s.screenActive ∧
    (s.takeMotion code).ssc = s.ssc ∧
    (s.takeMotion code).links = s.links ∧
    (s.takeMotion code).mga = s.mga ∧
    (s.takeMotion code).settings = s.settings ∧
    (s.takeMotion code).log = s.log ∧
    (s.takeMotion code).ps = s.ps ∧
    (s.takeMotion code).pending = s.pending := by
  simp only [takeMotion]
  repeat' split
  all_goals simp

@[simp] theorem takeGrant_frame (grant : Bool) (token : Byte) :
    (s.takeGrant grant token).lines = s.lines ∧
    (s.takeGrant grant token).mode = s.mode ∧
    (s.takeGrant grant token).roster = s.roster ∧
    (s.takeGrant grant token).policyStaged = s.policyStaged ∧
    (s.takeGrant grant token).policyActive = s.policyActive ∧
    (s.takeGrant grant token).bau = s.bau ∧
    (s.takeGrant grant token).rebalStaged = s.rebalStaged ∧
    (s.takeGrant grant token).rebalActive = s.rebalActive ∧
    (s.takeGrant grant token).rtu = s.rtu ∧
    (s.takeGrant grant token).ctu = s.ctu ∧
    (s.takeGrant grant token).screenStaged = s.screenStaged ∧
    (s.takeGrant grant token).screenActive = s.screenActive ∧
    (s.takeGrant grant token).ssc = s.ssc ∧
    (s.takeGrant grant token).links = s.links ∧
    (s.takeGrant grant token).mga = s.mga ∧
    (s.takeGrant grant token).settings = s.settings ∧
    (s.takeGrant grant token).log = s.log ∧
    (s.takeGrant grant token).ps = s.ps ∧
    (s.takeGrant grant token).pending = s.pending := by
  simp only [takeGrant]
  repeat' split
  all_goals simp

@[simp] theorem takeReference_frame (v : Tri Half) :
    (s.takeReference v).lines = s.lines ∧
    (s.takeReference v).mode = s.mode ∧
    (s.takeReference v).roster = s.roster ∧
    (s.takeReference v).policyStaged = s.policyStaged ∧
    (s.takeReference v).policyActive = s.policyActive ∧
    (s.takeReference v).rsq = s.rsq ∧
    (s.takeReference v).bau = s.bau ∧
    (s.takeReference v).rebalStaged = s.rebalStaged ∧
    (s.takeReference v).rebalActive = s.rebalActive ∧
    (s.takeReference v).rtu = s.rtu ∧
    (s.takeReference v).ctu = s.ctu ∧
    (s.takeReference v).screenStaged = s.screenStaged ∧
    (s.takeReference v).screenActive = s.screenActive ∧
    (s.takeReference v).ssc = s.ssc ∧
    (s.takeReference v).links = s.links ∧
    (s.takeReference v).mga = s.mga ∧
    (s.takeReference v).settings = s.settings ∧
    (s.takeReference v).log = s.log ∧
    (s.takeReference v).ps = s.ps ∧
    (s.takeReference v).pending = s.pending := by
  simp [takeReference]

@[simp] theorem receiveRef_frame (f : RefFrame) :
    (s.receiveRef f).lines = s.lines ∧
    (s.receiveRef f).mode = s.mode ∧
    (s.receiveRef f).roster = s.roster ∧
    (s.receiveRef f).policyStaged = s.policyStaged ∧
    (s.receiveRef f).policyActive = s.policyActive ∧
    (s.receiveRef f).bau = s.bau ∧
    (s.receiveRef f).rebalStaged = s.rebalStaged ∧
    (s.receiveRef f).rebalActive = s.rebalActive ∧
    (s.receiveRef f).rtu = s.rtu ∧
    (s.receiveRef f).ctu = s.ctu ∧
    (s.receiveRef f).screenStaged = s.screenStaged ∧
    (s.receiveRef f).screenActive = s.screenActive ∧
    (s.receiveRef f).ssc = s.ssc ∧
    (s.receiveRef f).links = s.links ∧
    (s.receiveRef f).mga = s.mga ∧
    (s.receiveRef f).settings = s.settings ∧
    (s.receiveRef f).log = s.log ∧
    (s.receiveRef f).ps = s.ps ∧
    (s.receiveRef f).pending = s.pending := by
  simp only [receiveRef]
  repeat' split
  all_goals simp

@[simp] theorem holdStep_frame  :
    (s.holdStep).lines = s.lines ∧
    (s.holdStep).policyStaged = s.policyStaged ∧
    (s.holdStep).policyActive = s.policyActive ∧
    (s.holdStep).rebalStaged = s.rebalStaged ∧
    (s.holdStep).rebalActive = s.rebalActive ∧
    (s.holdStep).rtu = s.rtu ∧
    (s.holdStep).screenStaged = s.screenStaged ∧
    (s.holdStep).screenActive = s.screenActive ∧
    (s.holdStep).ssc = s.ssc ∧
    (s.holdStep).mga = s.mga ∧
    (s.holdStep).settings = s.settings ∧
    (s.holdStep).pending = s.pending := by
  simp only [holdStep]
  repeat' split
  all_goals simp

/-! ### Operations of Machine/Requests.lean -/

@[simp] theorem setBuffer_frame (b : Fin 2) (v : Buffer) :
    (s.setBuffer b v).lines = s.lines ∧
    (s.setBuffer b v).mode = s.mode ∧
    (s.setBuffer b v).roster = s.roster ∧
    (s.setBuffer b v).policyStaged = s.policyStaged ∧
    (s.setBuffer b v).policyActive = s.policyActive ∧
    (s.setBuffer b v).rsq = s.rsq ∧
    (s.setBuffer b v).bau = s.bau ∧
    (s.setBuffer b v).rebalStaged = s.rebalStaged ∧
    (s.setBuffer b v).rebalActive = s.rebalActive ∧
    (s.setBuffer b v).rtu = s.rtu ∧
    (s.setBuffer b v).ctu = s.ctu ∧
    (s.setBuffer b v).screenStaged = s.screenStaged ∧
    (s.setBuffer b v).screenActive = s.screenActive ∧
    (s.setBuffer b v).ssc = s.ssc ∧
    (s.setBuffer b v).links = s.links ∧
    (s.setBuffer b v).cli = s.cli ∧
    (s.setBuffer b v).settings = s.settings ∧
    (s.setBuffer b v).log = s.log ∧
    (s.setBuffer b v).ps = s.ps ∧
    (s.setBuffer b v).pending = s.pending := by
  simp only [setBuffer]
  repeat' split
  all_goals simp

@[simp] theorem placeRequest_frame (b : Fin 2) (f : MgtFrame) :
    (s.placeRequest b f).lines = s.lines ∧
    (s.placeRequest b f).mode = s.mode ∧
    (s.placeRequest b f).roster = s.roster ∧
    (s.placeRequest b f).policyStaged = s.policyStaged ∧
    (s.placeRequest b f).policyActive = s.policyActive ∧
    (s.placeRequest b f).rsq = s.rsq ∧
    (s.placeRequest b f).bau = s.bau ∧
    (s.placeRequest b f).rebalStaged = s.rebalStaged ∧
    (s.placeRequest b f).rebalActive = s.rebalActive ∧
    (s.placeRequest b f).rtu = s.rtu ∧
    (s.placeRequest b f).ctu = s.ctu ∧
    (s.placeRequest b f).screenStaged = s.screenStaged ∧
    (s.placeRequest b f).screenActive = s.screenActive ∧
    (s.placeRequest b f).ssc = s.ssc ∧
    (s.placeRequest b f).links = s.links ∧
    (s.placeRequest b f).cli = s.cli ∧
    (s.placeRequest b f).settings = s.settings ∧
    (s.placeRequest b f).log = s.log ∧
    (s.placeRequest b f).ps = s.ps ∧
    (s.placeRequest b f).pending = s.pending := by
  simp [placeRequest]

@[simp] theorem receiveMgt_frame (f : MgtFrame) :
    (s.receiveMgt f).lines = s.lines ∧
    (s.receiveMgt f).mode = s.mode ∧
    (s.receiveMgt f).roster = s.roster ∧
    (s.receiveMgt f).policyStaged = s.policyStaged ∧
    (s.receiveMgt f).policyActive = s.policyActive ∧
    (s.receiveMgt f).rsq = s.rsq ∧
    (s.receiveMgt f).bau = s.bau ∧
    (s.receiveMgt f).rebalStaged = s.rebalStaged ∧
    (s.receiveMgt f).rebalActive = s.rebalActive ∧
    (s.receiveMgt f).rtu = s.rtu ∧
    (s.receiveMgt f).ctu = s.ctu ∧
    (s.receiveMgt f).screenStaged = s.screenStaged ∧
    (s.receiveMgt f).screenActive = s.screenActive ∧
    (s.receiveMgt f).ssc = s.ssc ∧
    (s.receiveMgt f).links = s.links ∧
    (s.receiveMgt f).settings = s.settings ∧
    (s.receiveMgt f).log = s.log ∧
    (s.receiveMgt f).ps = s.ps ∧
    (s.receiveMgt f).pending = s.pending := by
  simp only [receiveMgt]
  repeat' split
  all_goals simp

@[simp] theorem answer_frame (b : Fin 2) (f : MgtFrame) (v : Verdict) :
    (s.answer b f v).lines = s.lines ∧
    (s.answer b f v).mode = s.mode ∧
    (s.answer b f v).roster = s.roster ∧
    (s.answer b f v).policyStaged = s.policyStaged ∧
    (s.answer b f v).policyActive = s.policyActive ∧
    (s.answer b f v).rsq = s.rsq ∧
    (s.answer b f v).bau = s.bau ∧
    (s.answer b f v).rebalStaged = s.rebalStaged ∧
    (s.answer b f v).rebalActive = s.rebalActive ∧
    (s.answer b f v).rtu = s.rtu ∧
    (s.answer b f v).ctu = s.ctu ∧
    (s.answer b f v).screenStaged = s.screenStaged ∧
    (s.answer b f v).screenActive = s.screenActive ∧
    (s.answer b f v).ssc = s.ssc ∧
    (s.answer b f v).links = s.links ∧
    (s.answer b f v).settings = s.settings ∧
    (s.answer b f v).log = s.log ∧
    (s.answer b f v).ps = s.ps ∧
    (s.answer b f v).pending = s.pending := by
  simp only [answer]
  repeat' split
  all_goals simp

@[simp] theorem writeRoster_frame (f : MgtFrame) :
    (s.writeRoster f).lines = s.lines ∧
    (s.writeRoster f).mode = s.mode ∧
    (s.writeRoster f).policyStaged = s.policyStaged ∧
    (s.writeRoster f).policyActive = s.policyActive ∧
    (s.writeRoster f).rsq = s.rsq ∧
    (s.writeRoster f).bau = s.bau ∧
    (s.writeRoster f).rebalStaged = s.rebalStaged ∧
    (s.writeRoster f).rebalActive = s.rebalActive ∧
    (s.writeRoster f).rtu = s.rtu ∧
    (s.writeRoster f).ctu = s.ctu ∧
    (s.writeRoster f).screenStaged = s.screenStaged ∧
    (s.writeRoster f).screenActive = s.screenActive ∧
    (s.writeRoster f).ssc = s.ssc ∧
    (s.writeRoster f).cli = s.cli ∧
    (s.writeRoster f).mga = s.mga ∧
    (s.writeRoster f).settings = s.settings ∧
    (s.writeRoster f).log = s.log ∧
    (s.writeRoster f).ps = s.ps ∧
    (s.writeRoster f).pending = s.pending := by
  simp only [writeRoster]
  simp

@[simp] theorem writeStore_frame (f : MgtFrame) :
    (s.writeStore f).lines = s.lines ∧
    (s.writeStore f).mode = s.mode ∧
    (s.writeStore f).policyActive = s.policyActive ∧
    (s.writeStore f).rsq = s.rsq ∧
    (s.writeStore f).bau = s.bau ∧
    (s.writeStore f).rebalActive = s.rebalActive ∧
    (s.writeStore f).rtu = s.rtu ∧
    (s.writeStore f).ctu = s.ctu ∧
    (s.writeStore f).screenActive = s.screenActive ∧
    (s.writeStore f).ssc = s.ssc ∧
    (s.writeStore f).cli = s.cli ∧
    (s.writeStore f).mga = s.mga ∧
    (s.writeStore f).settings = s.settings ∧
    (s.writeStore f).log = s.log ∧
    (s.writeStore f).ps = s.ps ∧
    (s.writeStore f).pending = s.pending := by
  simp only [writeStore]
  repeat' split
  all_goals simp

@[simp] theorem commitStore_frame (f : MgtFrame) :
    (s.commitStore f).lines = s.lines ∧
    (s.commitStore f).mode = s.mode ∧
    (s.commitStore f).roster = s.roster ∧
    (s.commitStore f).policyStaged = s.policyStaged ∧
    (s.commitStore f).rsq = s.rsq ∧
    (s.commitStore f).bau = s.bau ∧
    (s.commitStore f).rebalStaged = s.rebalStaged ∧
    (s.commitStore f).rtu = s.rtu ∧
    (s.commitStore f).ctu = s.ctu ∧
    (s.commitStore f).screenStaged = s.screenStaged ∧
    (s.commitStore f).links = s.links ∧
    (s.commitStore f).settings = s.settings ∧
    (s.commitStore f).log = s.log ∧
    (s.commitStore f).ps = s.ps ∧
    (s.commitStore f).pending = s.pending := by
  simp only [commitStore]
  repeat' split
  all_goals simp

@[simp] theorem startRun_frame  :
    (s.startRun).lines = s.lines ∧
    (s.startRun).policyStaged = s.policyStaged ∧
    (s.startRun).policyActive = s.policyActive ∧
    (s.startRun).bau = s.bau ∧
    (s.startRun).rebalStaged = s.rebalStaged ∧
    (s.startRun).rebalActive = s.rebalActive ∧
    (s.startRun).rtu = s.rtu ∧
    (s.startRun).screenStaged = s.screenStaged ∧
    (s.startRun).screenActive = s.screenActive ∧
    (s.startRun).ssc = s.ssc ∧
    (s.startRun).links = s.links ∧
    (s.startRun).cli = s.cli ∧
    (s.startRun).mga = s.mga ∧
    (s.startRun).settings = s.settings ∧
    (s.startRun).log = s.log ∧
    (s.startRun).ps = s.ps ∧
    (s.startRun).pending = s.pending := by
  simp [startRun]

@[simp] theorem setWarmPending_frame  :
    (s.setWarmPending).lines = s.lines ∧
    (s.setWarmPending).mode = s.mode ∧
    (s.setWarmPending).roster = s.roster ∧
    (s.setWarmPending).policyStaged = s.policyStaged ∧
    (s.setWarmPending).policyActive = s.policyActive ∧
    (s.setWarmPending).rsq = s.rsq ∧
    (s.setWarmPending).bau = s.bau ∧
    (s.setWarmPending).rebalStaged = s.rebalStaged ∧
    (s.setWarmPending).rebalActive = s.rebalActive ∧
    (s.setWarmPending).rtu = s.rtu ∧
    (s.setWarmPending).ctu = s.ctu ∧
    (s.setWarmPending).screenStaged = s.screenStaged ∧
    (s.setWarmPending).screenActive = s.screenActive ∧
    (s.setWarmPending).ssc = s.ssc ∧
    (s.setWarmPending).links = s.links ∧
    (s.setWarmPending).cli = s.cli ∧
    (s.setWarmPending).settings = s.settings ∧
    (s.setWarmPending).log = s.log ∧
    (s.setWarmPending).ps = s.ps ∧
    (s.setWarmPending).pending = s.pending := by
  simp [setWarmPending]

@[simp] theorem forceZero_frame (f : MgtFrame) :
    (s.forceZero f).lines = s.lines ∧
    (s.forceZero f).mode = s.mode ∧
    (s.forceZero f).roster = s.roster ∧
    (s.forceZero f).policyStaged = s.policyStaged ∧
    (s.forceZero f).policyActive = s.policyActive ∧
    (s.forceZero f).rsq = s.rsq ∧
    (s.forceZero f).bau = s.bau ∧
    (s.forceZero f).rebalStaged = s.rebalStaged ∧
    (s.forceZero f).rebalActive = s.rebalActive ∧
    (s.forceZero f).rtu = s.rtu ∧
    (s.forceZero f).ctu = s.ctu ∧
    (s.forceZero f).screenStaged = s.screenStaged ∧
    (s.forceZero f).screenActive = s.screenActive ∧
    (s.forceZero f).ssc = s.ssc ∧
    (s.forceZero f).cli = s.cli ∧
    (s.forceZero f).mga = s.mga ∧
    (s.forceZero f).settings = s.settings ∧
    (s.forceZero f).log = s.log ∧
    (s.forceZero f).ps = s.ps ∧
    (s.forceZero f).pending = s.pending := by
  simp only [forceZero]
  repeat' split
  all_goals simp

@[simp] theorem releasePort_frame (f : MgtFrame) :
    (s.releasePort f).lines = s.lines ∧
    (s.releasePort f).mode = s.mode ∧
    (s.releasePort f).roster = s.roster ∧
    (s.releasePort f).policyStaged = s.policyStaged ∧
    (s.releasePort f).policyActive = s.policyActive ∧
    (s.releasePort f).rsq = s.rsq ∧
    (s.releasePort f).bau = s.bau ∧
    (s.releasePort f).rebalStaged = s.rebalStaged ∧
    (s.releasePort f).rebalActive = s.rebalActive ∧
    (s.releasePort f).rtu = s.rtu ∧
    (s.releasePort f).ctu = s.ctu ∧
    (s.releasePort f).screenStaged = s.screenStaged ∧
    (s.releasePort f).screenActive = s.screenActive ∧
    (s.releasePort f).ssc = s.ssc ∧
    (s.releasePort f).cli = s.cli ∧
    (s.releasePort f).mga = s.mga ∧
    (s.releasePort f).settings = s.settings ∧
    (s.releasePort f).log = s.log ∧
    (s.releasePort f).ps = s.ps ∧
    (s.releasePort f).pending = s.pending := by
  simp only [releasePort]
  repeat' split
  all_goals simp

@[simp] theorem relinkPort_frame (f : MgtFrame) :
    (s.relinkPort f).lines = s.lines ∧
    (s.relinkPort f).mode = s.mode ∧
    (s.relinkPort f).roster = s.roster ∧
    (s.relinkPort f).policyStaged = s.policyStaged ∧
    (s.relinkPort f).policyActive = s.policyActive ∧
    (s.relinkPort f).rsq = s.rsq ∧
    (s.relinkPort f).bau = s.bau ∧
    (s.relinkPort f).rebalStaged = s.rebalStaged ∧
    (s.relinkPort f).rebalActive = s.rebalActive ∧
    (s.relinkPort f).rtu = s.rtu ∧
    (s.relinkPort f).ctu = s.ctu ∧
    (s.relinkPort f).screenStaged = s.screenStaged ∧
    (s.relinkPort f).screenActive = s.screenActive ∧
    (s.relinkPort f).ssc = s.ssc ∧
    (s.relinkPort f).cli = s.cli ∧
    (s.relinkPort f).mga = s.mga ∧
    (s.relinkPort f).settings = s.settings ∧
    (s.relinkPort f).log = s.log ∧
    (s.relinkPort f).ps = s.ps ∧
    (s.relinkPort f).pending = s.pending := by
  simp only [relinkPort]
  repeat' split
  all_goals simp

@[simp] theorem sendReply_frame (b : Fin 2) :
    (s.sendReply b).lines = s.lines ∧
    (s.sendReply b).mode = s.mode ∧
    (s.sendReply b).roster = s.roster ∧
    (s.sendReply b).policyStaged = s.policyStaged ∧
    (s.sendReply b).policyActive = s.policyActive ∧
    (s.sendReply b).rsq = s.rsq ∧
    (s.sendReply b).bau = s.bau ∧
    (s.sendReply b).rebalStaged = s.rebalStaged ∧
    (s.sendReply b).rebalActive = s.rebalActive ∧
    (s.sendReply b).rtu = s.rtu ∧
    (s.sendReply b).ctu = s.ctu ∧
    (s.sendReply b).screenStaged = s.screenStaged ∧
    (s.sendReply b).screenActive = s.screenActive ∧
    (s.sendReply b).ssc = s.ssc ∧
    (s.sendReply b).links = s.links ∧
    (s.sendReply b).settings = s.settings ∧
    (s.sendReply b).log = s.log ∧
    (s.sendReply b).ps = s.ps ∧
    (s.sendReply b).pending = s.pending := by
  simp [sendReply]

/-! ### Operations of Machine/Resets.lean -/

@[simp] theorem warmMode_frame  :
    (s.warmMode).lines = s.lines ∧
    (s.warmMode).policyStaged = s.policyStaged ∧
    (s.warmMode).policyActive = s.policyActive ∧
    (s.warmMode).rsq = s.rsq ∧
    (s.warmMode).bau = s.bau ∧
    (s.warmMode).rebalStaged = s.rebalStaged ∧
    (s.warmMode).rebalActive = s.rebalActive ∧
    (s.warmMode).rtu = s.rtu ∧
    (s.warmMode).ctu = s.ctu ∧
    (s.warmMode).screenStaged = s.screenStaged ∧
    (s.warmMode).screenActive = s.screenActive ∧
    (s.warmMode).ssc = s.ssc ∧
    (s.warmMode).cli = s.cli ∧
    (s.warmMode).mga = s.mga ∧
    (s.warmMode).settings = s.settings ∧
    (s.warmMode).log = s.log ∧
    (s.warmMode).ps = s.ps ∧
    (s.warmMode).pending = s.pending := by
  simp only [warmMode]
  repeat' split
  all_goals simp

@[simp] theorem warmReset_frame  :
    (s.warmReset).lines = s.lines ∧
    (s.warmReset).policyStaged = s.policyStaged ∧
    (s.warmReset).policyActive = s.policyActive ∧
    (s.warmReset).rebalStaged = s.rebalStaged ∧
    (s.warmReset).rebalActive = s.rebalActive ∧
    (s.warmReset).screenStaged = s.screenStaged ∧
    (s.warmReset).screenActive = s.screenActive ∧
    (s.warmReset).settings = s.settings ∧
    (s.warmReset).log = s.log ∧
    (s.warmReset).ps = s.ps ∧
    (s.warmReset).pending = s.pending := by
  simp [warmReset]

@[simp] theorem fallSafety_frame  :
    (s.fallSafety).policyStaged = s.policyStaged ∧
    (s.fallSafety).policyActive = s.policyActive ∧
    (s.fallSafety).rebalStaged = s.rebalStaged ∧
    (s.fallSafety).rebalActive = s.rebalActive ∧
    (s.fallSafety).rtu = s.rtu ∧
    (s.fallSafety).screenStaged = s.screenStaged ∧
    (s.fallSafety).screenActive = s.screenActive ∧
    (s.fallSafety).ssc = s.ssc ∧
    (s.fallSafety).mga = s.mga ∧
    (s.fallSafety).settings = s.settings ∧
    (s.fallSafety).pending = s.pending := by
  simp only [fallSafety]
  repeat' split
  all_goals simp

/-! ### Operations of Machine/PeriodStart.lean -/

@[simp] theorem startCycle_frame  :
    (s.startCycle).lines = s.lines ∧
    (s.startCycle).mode = s.mode ∧
    (s.startCycle).roster = s.roster ∧
    (s.startCycle).policyStaged = s.policyStaged ∧
    (s.startCycle).policyActive = s.policyActive ∧
    (s.startCycle).rsq = s.rsq ∧
    (s.startCycle).bau = s.bau ∧
    (s.startCycle).rebalStaged = s.rebalStaged ∧
    (s.startCycle).rebalActive = s.rebalActive ∧
    (s.startCycle).rtu = s.rtu ∧
    (s.startCycle).screenStaged = s.screenStaged ∧
    (s.startCycle).screenActive = s.screenActive ∧
    (s.startCycle).ssc = s.ssc ∧
    (s.startCycle).links = s.links ∧
    (s.startCycle).cli = s.cli ∧
    (s.startCycle).mga = s.mga ∧
    (s.startCycle).settings = s.settings ∧
    (s.startCycle).log = s.log ∧
    (s.startCycle).ps = s.ps ∧
    (s.startCycle).pending = s.pending := by
  simp [startCycle]

@[simp] theorem enterPeriod_frame  :
    (s.enterPeriod).lines = s.lines ∧
    (s.enterPeriod).mode = s.mode ∧
    (s.enterPeriod).roster = s.roster ∧
    (s.enterPeriod).policyStaged = s.policyStaged ∧
    (s.enterPeriod).policyActive = s.policyActive ∧
    (s.enterPeriod).rsq = s.rsq ∧
    (s.enterPeriod).bau = s.bau ∧
    (s.enterPeriod).rebalStaged = s.rebalStaged ∧
    (s.enterPeriod).rebalActive = s.rebalActive ∧
    (s.enterPeriod).rtu = s.rtu ∧
    (s.enterPeriod).screenStaged = s.screenStaged ∧
    (s.enterPeriod).screenActive = s.screenActive ∧
    (s.enterPeriod).ssc = s.ssc ∧
    (s.enterPeriod).mga = s.mga ∧
    (s.enterPeriod).settings = s.settings ∧
    (s.enterPeriod).log = s.log ∧
    (s.enterPeriod).pending = s.pending := by
  simp [enterPeriod]

@[simp] theorem setSupply_frame (ok : Bool) :
    (s.setSupply ok).mode = s.mode ∧
    (s.setSupply ok).roster = s.roster ∧
    (s.setSupply ok).policyStaged = s.policyStaged ∧
    (s.setSupply ok).policyActive = s.policyActive ∧
    (s.setSupply ok).rsq = s.rsq ∧
    (s.setSupply ok).bau = s.bau ∧
    (s.setSupply ok).rebalStaged = s.rebalStaged ∧
    (s.setSupply ok).rebalActive = s.rebalActive ∧
    (s.setSupply ok).rtu = s.rtu ∧
    (s.setSupply ok).ctu = s.ctu ∧
    (s.setSupply ok).screenStaged = s.screenStaged ∧
    (s.setSupply ok).screenActive = s.screenActive ∧
    (s.setSupply ok).ssc = s.ssc ∧
    (s.setSupply ok).links = s.links ∧
    (s.setSupply ok).cli = s.cli ∧
    (s.setSupply ok).mga = s.mga ∧
    (s.setSupply ok).settings = s.settings ∧
    (s.setSupply ok).log = s.log ∧
    (s.setSupply ok).ps = s.ps ∧
    (s.setSupply ok).pending = s.pending := by
  simp [setSupply]

/-! ### The replies sent before a period start -/

/-- What the end of a reply may not change, be it the reply of a warm reset. -/
@[simp] theorem replyEnds_frame :
    s.replyEnds.lines = s.lines ∧ s.replyEnds.policyStaged = s.policyStaged ∧
    s.replyEnds.policyActive = s.policyActive ∧ s.replyEnds.rebalStaged = s.rebalStaged ∧
    s.replyEnds.rebalActive = s.rebalActive ∧ s.replyEnds.screenStaged = s.screenStaged ∧
    s.replyEnds.screenActive = s.screenActive ∧ s.replyEnds.settings = s.settings ∧ s.replyEnds.log = s.log ∧
    s.replyEnds.ps = s.ps ∧ s.replyEnds.pending = s.pending := by
  simp only [replyEnds]
  repeat' split
  all_goals simp

@[simp] theorem foldl_replyEnds_frame (l : List UpFrame) :
    (l.foldl (fun t _ => t.replyEnds) s).lines = s.lines ∧
    (l.foldl (fun t _ => t.replyEnds) s).policyStaged = s.policyStaged ∧
    (l.foldl (fun t _ => t.replyEnds) s).policyActive = s.policyActive ∧
    (l.foldl (fun t _ => t.replyEnds) s).rebalStaged = s.rebalStaged ∧
    (l.foldl (fun t _ => t.replyEnds) s).rebalActive = s.rebalActive ∧
    (l.foldl (fun t _ => t.replyEnds) s).screenStaged = s.screenStaged ∧
    (l.foldl (fun t _ => t.replyEnds) s).screenActive = s.screenActive ∧
    (l.foldl (fun t _ => t.replyEnds) s).settings = s.settings ∧
    (l.foldl (fun t _ => t.replyEnds) s).log = s.log ∧ (l.foldl (fun t _ => t.replyEnds) s).ps = s.ps ∧
    (l.foldl (fun t _ => t.replyEnds) s).pending = s.pending := by
  induction l generalizing s with
  | nil => simp
  | cons a l ih => simpa using ih s.replyEnds

/-- What the replies sent before a period start may not change. -/
@[simp] theorem sendDue_frame :
    s.sendDue.lines = s.lines ∧ s.sendDue.policyStaged = s.policyStaged ∧ s.sendDue.policyActive = s.policyActive ∧
    s.sendDue.rebalStaged = s.rebalStaged ∧ s.sendDue.rebalActive = s.rebalActive ∧
    s.sendDue.screenStaged = s.screenStaged ∧ s.sendDue.screenActive = s.screenActive ∧
    s.sendDue.settings = s.settings ∧ s.sendDue.log = s.log ∧ s.sendDue.ps = s.ps ∧
    s.sendDue.pending = s.pending := by
  simp [sendDue]

/-- With no reply placed before a digest of the list, none is sent before the period start. -/
@[simp] theorem sendDue_of_digestsFirst (h : ∀ f ∈ s.dueUpstream, f.isDigest = true) : s.sendDue = s := by
  have hn : s.dueUpstream.filter (fun f => !f.isDigest) = [] := by
    simp only [List.filter_eq_nil_iff, Bool.not_eq_true', Bool.not_eq_false]
    exact h
  simp [sendDue, hn]

/-! ### The steps of a period start -/

/-- What a step of a period start may not change: the lines, the staged banks, the record and the queue. -/
@[simp] theorem runStep_frame (x : PsStep) :
    (s.runStep x).lines = s.lines ∧ (s.runStep x).policyStaged = s.policyStaged ∧
    (s.runStep x).rebalStaged = s.rebalStaged ∧ (s.runStep x).screenStaged = s.screenStaged ∧
    (s.runStep x).settings = s.settings ∧ (s.runStep x).pending = s.pending := by
  cases x <;> simp [runStep]

@[simp] theorem takeOne_frame (x : PsStep) :
    (s.takeOne x).lines = s.lines ∧ (s.takeOne x).policyStaged = s.policyStaged ∧
    (s.takeOne x).rebalStaged = s.rebalStaged ∧ (s.takeOne x).screenStaged = s.screenStaged ∧
    (s.takeOne x).settings = s.settings ∧ (s.takeOne x).pending = s.pending := by
  simp only [takeOne]
  split
  all_goals simp

@[simp] theorem foldl_takeOne_frame (l : List PsStep) :
    (l.foldl takeOne s).lines = s.lines ∧ (l.foldl takeOne s).policyStaged = s.policyStaged ∧
    (l.foldl takeOne s).rebalStaged = s.rebalStaged ∧ (l.foldl takeOne s).screenStaged = s.screenStaged ∧
    (l.foldl takeOne s).settings = s.settings ∧ (l.foldl takeOne s).pending = s.pending := by
  induction l generalizing s with
  | nil => simp
  | cons a l ih => simpa using ih (s.takeOne a)

@[simp] theorem prepare_frame (x : PsStep) :
    (s.prepare x).lines = s.lines ∧ (s.prepare x).policyStaged = s.policyStaged ∧
    (s.prepare x).rebalStaged = s.rebalStaged ∧ (s.prepare x).screenStaged = s.screenStaged ∧
    (s.prepare x).settings = s.settings ∧ (s.prepare x).pending = s.pending := by
  simp only [prepare]
  split
  all_goals simp

@[simp] theorem takeStep_frame (x : PsStep) :
    (s.takeStep x).lines = s.lines ∧ (s.takeStep x).policyStaged = s.policyStaged ∧
    (s.takeStep x).rebalStaged = s.rebalStaged ∧ (s.takeStep x).screenStaged = s.screenStaged ∧
    (s.takeStep x).settings = s.settings ∧ (s.takeStep x).pending = s.pending := by
  simp [takeStep]

@[simp] theorem foldl_takeStep_frame (l : List PsStep) :
    (l.foldl takeStep s).lines = s.lines ∧ (l.foldl takeStep s).policyStaged = s.policyStaged ∧
    (l.foldl takeStep s).rebalStaged = s.rebalStaged ∧ (l.foldl takeStep s).screenStaged = s.screenStaged ∧
    (l.foldl takeStep s).settings = s.settings ∧ (l.foldl takeStep s).pending = s.pending := by
  induction l generalizing s with
  | nil => simp
  | cons a l ih => simpa using ih (s.takeStep a)

/-- What finishing a period start may not change. -/
@[simp] theorem completePeriod_frame :
    s.completePeriod.lines = s.lines ∧ s.completePeriod.policyStaged = s.policyStaged ∧
    s.completePeriod.rebalStaged = s.rebalStaged ∧ s.completePeriod.screenStaged = s.screenStaged ∧
    s.completePeriod.settings = s.settings ∧ s.completePeriod.pending = s.pending ∧
    s.completePeriod.ps = PeriodProgress.none := by
  have h : ((defaultOrder.foldl takeStep s).updPs (fun _ => PeriodProgress.none)).takeHanded.ps = PeriodProgress.none :=
    takeHanded_closed _ rfl
  simp [completePeriod, h]

@[simp] theorem finishPeriod_frame :
    s.finishPeriod.lines = s.lines ∧ s.finishPeriod.policyStaged = s.policyStaged ∧
    s.finishPeriod.rebalStaged = s.rebalStaged ∧ s.finishPeriod.screenStaged = s.screenStaged ∧
    s.finishPeriod.settings = s.settings ∧ s.finishPeriod.pending = s.pending ∧
    s.finishPeriod.ps.underWay = false := by
  simp only [finishPeriod]
  split
  · simp [PeriodProgress.none]
  · simp_all

end Sys2Proof.Machine.State
end

