-- ==== Sys2Proof/Laws/Period.lean ====
section
/-! SUPPORT. What every step of a period start keeps, a period start keeps; what the parts of a command keep, the
command keeps. -/

namespace Sys2Proof.Machine

/-- A property that every block's step of a period start keeps, with the bookkeeping around the steps. -/
structure PeriodKept (P : State → Prop) : Prop where
  record : ∀ s f, P s → P (s.updPs f)
  run : ∀ s x, P s → P (s.runStep x)
  opening : ∀ s, P s → P s.enterPeriod
  replies : ∀ s, P s → P s.replyEnds
  supply : ∀ s ok, P s → P (s.setSupply ok)
  judge : ∀ s p, P s → P (s.judgePort p)
  latch : ∀ s l, P s → P (s.takeLatch l)
  handed : ∀ s h, P s → P (s.updSsc (fun c => { c with handed := h }))

namespace PeriodKept

variable {P : State → Prop} (k : PeriodKept P) {s : State}
include k

theorem takeOne (h : P s) (x : PsStep) : P (s.takeOne x) := by
  simp only [State.takeOne]
  split
  · exact h
  · exact k.run _ _ (k.record _ _ h)

theorem foldl_takeOne (h : P s) (l : List PsStep) : P (l.foldl State.takeOne s) := by
  induction l generalizing s with
  | nil => exact h
  | cons x l ih => exact ih (k.takeOne h x)

theorem prepare (h : P s) (x : PsStep) : P (s.prepare x) := by
  simp only [State.prepare]
  split
  · exact k.takeOne (k.foldl_takeOne h _) _
  · exact k.foldl_takeOne h _

theorem takeStep (h : P s) (x : PsStep) : P (s.takeStep x) := k.takeOne (k.prepare h x) x

theorem foldl_takeStep (h : P s) (l : List PsStep) : P (l.foldl State.takeStep s) := by
  induction l generalizing s with
  | nil => exact h
  | cons x l ih => exact ih (k.takeStep h x)

/-- The latches handed over are taken, one after another. -/
theorem takeHanded (h : P s) : P s.takeHanded := by
  have fold : ∀ (l : List Latch) (t : State), P t → P (l.foldl State.takeLatch t) := by
    intro l
    induction l with
    | nil => exact fun t ht => ht
    | cons a l ih => exact fun t ht => ih _ (k.latch _ a ht)
  exact fold _ _ (k.handed _ [] h)

theorem completePeriod (h : P s) : P s.completePeriod := k.takeHanded (k.record _ _ (k.foldl_takeStep h _))

theorem finishPeriod (h : P s) : P s.finishPeriod := by
  simp only [State.finishPeriod]
  split
  · exact k.completePeriod h
  · exact k.takeHanded h

theorem sendDue (h : P s) : P s.sendDue := by
  have fold : ∀ (l : List UpFrame) (t : State), P t → P (l.foldl (fun t _ => t.replyEnds) t) := by
    intro l
    induction l with
    | nil => exact fun t ht => ht
    | cons a l ih => exact fun t ht => ih _ (k.replies _ ht)
  exact fold _ _ h

theorem beginPeriod (h : P s) : P s.beginPeriod := k.opening _ (k.sendDue h)

theorem openPeriod (h : P s) : P s.openPeriod := by
  simp only [State.openPeriod]
  split
  · exact h
  · exact k.beginPeriod h

theorem periodStart (h : P s) (ok : Bool) (order : List PsStep) : P (s.periodStart ok order) :=
  k.completePeriod (k.foldl_takeStep (k.supply _ _ (k.openPeriod h)) _)

theorem stepEvent (h : P s) (x : PsStep) (c : State → Bool) : P (s.stepEvent x c) := by
  simp only [State.stepEvent]
  split
  · exact k.takeOne (k.prepare (k.openPeriod h) x) x
  · exact h

theorem portEvent (h : P s) (p : Port) : P (s.portEvent p) := by
  simp only [State.portEvent]
  split
  · exact k.judge _ _ (k.openPeriod h)
  · exact h

theorem issueEvent (h : P s) (ok : Bool) : P (s.issueEvent ok) := by
  simp only [State.issueEvent]
  split
  · exact k.takeOne (k.prepare (k.supply _ _ (k.openPeriod h)) .issue) .issue
  · exact h

theorem between (h : P s) {f : State → State} (hf : P s.finishPeriod → P (f s.finishPeriod)) : P (s.between f) := by
  simp only [State.between, State.unlessHeld]
  split
  · exact hf (k.finishPeriod h)
  · exact h

theorem betweenFrames (h : P s) (late : Bool) {f : State → State} (hf : ∀ t, P t → P (f t)) :
    P (s.betweenFrames late f) := by
  simp only [State.betweenFrames, State.unlessHeld]
  repeat' split
  · exact hf _ h
  · exact hf _ (k.finishPeriod h)
  · exact h

end PeriodKept

/-- A buffer set leaves the warm reset pending mark. -/
@[simp] theorem State.setBuffer_warmPending (s : State) (b : Fin 2) (v : Buffer) :
    (s.setBuffer b v).mga.warmPending = s.mga.warmPending := by
  simp only [State.setBuffer, State.updMga]
  split <;> rfl

/-- What a warm reset keeps where it is pending, and the sending of a reply, the end of a reply keeps. -/
theorem State.replyEnds_keeps {P : State → Prop} {s : State} (h : P s)
    (warm : s.mga.warmPending = true → P s.warmReset) (sent : ∀ b, P (s.sendReply b)) : P s.replyEnds := by
  simp only [State.replyEnds]
  split
  · split
    · rename_i hw
      simp only [Bool.and_eq_true] at hw
      exact warm hw.1
    · exact sent _
  · exact h

/-- A service keeps what its effect and the answer keep. -/
theorem State.serve_keeps {P : State → Prop} {s : State} (h : P s) (sel : Nat → Bool)
    {checks : State → MgtFrame → Option Reject} {effect : State → MgtFrame → State × List Byte}
    (ha : ∀ t b f v, P t → P (t.answer b f v))
    (he : ∀ b f, s.nextRequest? = some (b, f) → checks s f = none → P (effect s f).1) :
    P (s.serve sel checks effect) := by
  simp only [State.serve]
  split
  · split
    · split
      · exact ha _ _ _ _ h
      · exact ha _ _ _ _ (he _ _ ‹_› ‹_›)
    · exact h
  · exact h

/-- A check that holds leaves nothing to reject. -/
@[simp] theorem require_eq_none (c : Bool) (r : Result) (d : Nat) : require c r d = none ↔ c = true := by
  cases c <;> simp [require]

/-- No check is failed exactly when each holds. -/
@[simp] theorem firstReject_eq_none (l : List (Option Reject)) : firstReject l = none ↔ ∀ c ∈ l, c = none := by
  simp [firstReject, List.findSome?_eq_none_iff]

/-- No number of a first failure exactly when every check holds. -/
@[simp] theorem firstFailure_eq_none (l : List Bool) : firstFailure l = none ↔ ∀ c ∈ l, c = true := by
  simp [firstFailure, List.findIdx?_eq_none_iff]

end Sys2Proof.Machine
end

