-- ==== Sys2Proof/Laws/Commands.lean ====
section
/-! SUPPORT. What the parts of every command keep, every command keeps, and so does every step. -/

namespace Sys2Proof.Machine

open State

/-- A property that every part of every command keeps: the steps of a period start, the arrivals, the services (each
effect under the checks that let it happen), the resets and the safety input. -/
structure CommandKept (P : State → Prop) : Prop where
  period : PeriodKept P
  pinReset : ∀ s, P s → P s.pinReset
  riseReset : ∀ s, P s → P s.riseReset
  safety : ∀ s high, P s → P (s.setSafety high)
  fall : ∀ s, P s → P s.fallSafety
  tick : ∀ s, P s → s.ctu.position + 1 < 2 * s.ctu.pInForce →
    P (s.updCtu (fun c => { c with position := c.position + 1 }))
  ref : ∀ s f, P s → P (s.receiveRef f)
  mgt : ∀ s f, P s → P (s.receiveMgt f)
  bad : ∀ s, P s → P s.badFrame
  sts : ∀ s p bytes late, P s → P (s.receiveSts p bytes late)
  warm : ∀ s, P s → s.mga.warmPending = true → P s.warmReset
  answer : ∀ s b f v, P s → P (s.answer b f v)
  write : ∀ s f, P s → s.checkWriteTable f = none → P (s.writeStore f)
  commit : ∀ s f, P s → P (s.commitStore f)
  config : ∀ s f, P s → s.checkSetConfig f = none → P (s.setSettings (settingsAt f.payload))
  start : ∀ s f, P s → s.mga.warmPending = false → s.checkStart f = none → P s.startRun
  stop : ∀ s, P s → P (s.departRun .standby)
  clear : ∀ s f, P s → s.checkClear f = none → P (s.setMode .standby)
  warmMark : ∀ s f, P s → s.checkWarmReset f = none → P s.setWarmPending
  force : ∀ s f, P s → P (s.forceZero f)
  release : ∀ s f, P s → P (s.releasePort f)
  relink : ∀ s f, P s → P (s.relinkPort f)

namespace CommandKept

variable {P : State → Prop} (k : CommandKept P) {s t : State}
include k

omit k in
theorem unlessHeld (h : P s) {f : State → State} (hf : P s → P (f s)) : P (s.unlessHeld f) := by
  simp only [State.unlessHeld]
  split
  · exact hf h
  · exact h

/-- A service under its checks. -/
theorem serve (h : P s) (sel : Nat → Bool) {checks : State → MgtFrame → Option Reject}
    {effect : State → MgtFrame → State × List Byte}
    (he : ∀ f, s.mga.warmPending = false → checks s f = none → P (effect s f).1) :
    P (s.serve sel checks effect) := by
  refine serve_keeps h sel k.answer (fun b f hn hc => he f ?_ hc)
  simp only [nextRequest?] at hn
  split at hn
  · cases hn
  · exact Bool.eq_false_iff.2 ‹_›

theorem idleTick (h : P s) : P s.idleTick := by
  refine unlessHeld h (fun h => ?_)
  repeat' split
  · exact k.period.finishPeriod h
  · exact k.tick _ h ‹_›
  · exact k.period.periodStart h _ _

theorem exec {c : Instr} (h : P s) (e : Machine.exec c s = .next t) : P t := by
  have event : ∀ x cond, P (s.unlessHeld (fun t => t.stepEvent x cond)) :=
    fun x cond => unlessHeld h (fun h => k.period.stepEvent h x cond)
  have warm : ∀ {u : State}, P u → P u.warmEffect := by
    intro u hu
    simp only [warmEffect]
    split
    · exact k.warm _ hu ‹_›
    · exact hu
  cases c <;> (injection e with e; subst e)
  case pinReset => exact k.pinReset _ h
  case resetNRise => split; exacts [h, k.riseReset _ h]
  case periodStart ok order => exact unlessHeld h (fun h => k.period.periodStart h ok order)
  case safetyStopFall =>
    simp only [safetyFall]
    repeat' split
    exacts [k.safety _ _ h, k.fall _ (k.period.finishPeriod h), h]
  case safetyStopRise =>
    simp only [safetyRise]
    repeat' split
    exacts [k.safety _ _ h, h, k.safety _ _ (k.period.finishPeriod h)]
  case refFrame f => exact k.period.between h (fun h => k.ref _ f h)
  case mgtFrame f =>
    refine k.period.between h (fun h => ?_)
    simp only [arriveMgt]
    split
    exacts [k.mgt _ f h, k.bad _ h]
  case badDownstreamFrame bytes =>
    refine k.period.between h (fun h => ?_)
    simp only [arriveBytes]
    split
    exacts [k.bad _ h, k.ref _ _ h, k.mgt _ _ h]
  case stsFrame p a => exact k.period.betweenFrames h _ (fun t h => k.sts t p _ _ h)
  case replySent => exact k.period.between h (k.period.replies _)
  case warmResetEffect => exact k.period.between h warm
  case readTable => exact k.period.between h (fun h => k.serve h _ (fun _ _ _ => h))
  case writeTable => exact k.period.between h (fun h => k.serve h _ (fun f _ hc => k.write _ f h hc))
  case commit => exact k.period.between h (fun h => k.serve h _ (fun f _ _ => k.commit _ f h))
  case setConfig => exact k.period.between h (fun h => k.serve h _ (fun f _ hc => k.config _ f h hc))
  case start => exact k.period.between h (fun h => k.serve h _ (fun f hp hc => k.start _ f h hp hc))
  case stop => exact k.period.between h (fun h => k.serve h _ (fun _ _ _ => k.stop _ h))
  case clear => exact k.period.between h (fun h => k.serve h _ (fun f _ hc => k.clear _ f h hc))
  case warmReset => exact k.period.between h (fun h => k.serve h _ (fun f _ hc => k.warmMark _ f h hc))
  case forceZero => exact k.period.between h (fun h => k.serve h _ (fun f _ _ => k.force _ f h))
  case release => exact k.period.between h (fun h => k.serve h _ (fun f _ _ => k.release _ f h))
  case relink => exact k.period.between h (fun h => k.serve h _ (fun f _ _ => k.relink _ f h))
  case readLog => exact k.period.between h (fun h => k.serve h _ (fun _ _ _ => h))
  case unknownRequest => exact k.period.between h (fun h => k.serve h _ (fun _ _ _ => h))
  case portLost p => exact unlessHeld h (fun h => k.period.portEvent h p)
  case actuationIssue ok => exact unlessHeld h (fun h => k.period.issueEvent h ok)
  all_goals exact event _ _

/-- A property that does not look at the queue is kept by every step. -/
theorem step (hq : ∀ u q, P u → P { u with pending := q }) (h : P s) (e : Machine.step s = .next t) : P t := by
  simp only [Machine.step] at e
  split at e
  · injection e with e; subst e; exact k.idleTick h
  · exact k.exec (hq _ _ h) e

end CommandKept

end Sys2Proof.Machine
end

