-- ==== Sys2Proof/Laws/FlagLaws.lean ====
section
/-! SUPPORT. The event flags that no block raises at a period start: each step leaves them as they are. -/

namespace Sys2Proof.Machine

/-- The flags that only the arrival of a frame raises, or a warm reset (R147). -/
def quietFlags : List Flag :=
  [.clip, .note, .tripCause, .refOverrun, .refDuplicate, .refBadCrc, .motionInvalid, .grantStale, .reqDropped]

/-- A flag raised stands in the set, and every other flag is as before. -/
theorem hasFlag_withFlag (set : BitVec 24) (f x : Flag) : hasFlag (withFlag set f) x = (hasFlag set x || f == x) := by
  have h : (BitVec.twoPow 24 f.bitNumber).getLsbD x.bitNumber = (f == x) := by cases f <;> cases x <;> decide
  rw [hasFlag, withFlag, BitVec.getLsbD_or, h]
  rfl

/-- Raising another flag leaves a flag of `quietFlags` as it is. -/
theorem hasFlag_withFlag_quiet {x : Flag} (hx : x ∈ quietFlags) (set : BitVec 24) {f : Flag} (hf : f ∉ quietFlags) :
    hasFlag (withFlag set f) x = hasFlag set x := by
  have h : (f == x) = false := by simpa using fun h : f = x => hf (h ▸ hx)
  simp [hasFlag_withFlag, h]

namespace State

variable (s : State) {x : Flag}

/-- What every element of a list leaves as it is, the whole list does. -/
theorem foldl_quiet {α : Type} {f : State → α → State}
    (hf : ∀ t a, hasFlag (f t a).cli.flags x = hasFlag t.cli.flags x) (l : List α) :
    hasFlag (l.foldl f s).cli.flags x = hasFlag s.cli.flags x := by
  induction l generalizing s with
  | nil => rfl
  | cons a l ih => rw [List.foldl_cons, ih, hf]

variable (hx : x ∈ quietFlags)
include hx

theorem raise_quiet {f : Flag} (hf : f ∉ quietFlags) : hasFlag (s.raise f).cli.flags x = hasFlag s.cli.flags x :=
  hasFlag_withFlag_quiet hx _ hf

theorem writeLog_quiet (e : LogEntry) : hasFlag (s.writeLog e).cli.flags x = hasFlag s.cli.flags x :=
  raise_quiet (s.setLog _) hx (by decide)

theorem requestTrip_quiet (r : TripRequest) : hasFlag (s.requestTrip r).cli.flags x = hasFlag s.cli.flags x := by
  simp only [requestTrip]
  split
  · rw [departRun_frame _ _ |>.2.2.2.2.2.2.2.2.2.1]
    exact s.writeLog_quiet hx _
  · rfl

theorem countLatch_quiet (l : Latch) (m : Mode) (st : Stage) (depth : Nat) :
    hasFlag (s.countLatch l m st depth).cli.flags x = hasFlag s.cli.flags x := by
  rw [countLatch, writeLog_quiet _ hx, raise_quiet _ hx (by decide), updEntry_cli]

theorem acceptLatch_quiet (l : Latch) : hasFlag (s.acceptLatch l).cli.flags x = hasFlag s.cli.flags x := by
  simp only [acceptLatch]
  repeat' split
  all_goals simp [requestTrip_quiet _ hx, countLatch_quiet _ hx]

theorem takeLatch_quiet (l : Latch) : hasFlag (s.takeLatch l).cli.flags x = hasFlag s.cli.flags x := by
  simp only [takeLatch, latchOutsideRun]
  repeat' split
  all_goals simp [acceptLatch_quiet _ hx, countLatch_quiet _ hx]

theorem raiseIf_quiet (c : Bool) {f : Flag} (hf : f ∉ quietFlags) :
    hasFlag (s.raiseIf c f).cli.flags x = hasFlag s.cli.flags x := by
  simp only [raiseIf]
  split
  · exact s.raise_quiet hx hf
  · rfl

theorem copyBanks_quiet (gs : List Group) : hasFlag (s.copyBanks gs).cli.flags x = hasFlag s.cli.flags x := by
  rw [copyBanks, raiseIf_quiet _ hx _ (by decide)]
  exact foldl_quiet s (fun t g => by cases g <;> rfl) gs

theorem failStep_quiet : hasFlag s.failStep.cli.flags x = hasFlag s.cli.flags x := by
  simp only [failStep, closeFailed, openFailed]
  repeat' split
  all_goals simp [requestTrip_quiet _ hx, writeLog_quiet _ hx, hasFlag_withFlag_quiet hx, quietFlags]

theorem failAlign_quiet (p : Port) : hasFlag (s.failAlign p).cli.flags x = hasFlag s.cli.flags x := by
  simp only [failAlign]
  split
  · exact acceptLatch_quiet _ hx _
  · rfl

theorem windowStep_quiet : hasFlag s.windowStep.cli.flags x = hasFlag s.cli.flags x := by
  rw [windowStep, foldl_quiet _ (fun t p => t.failAlign_quiet hx p)]
  split
  · rfl
  · exact raise_quiet _ hx (by decide)

theorem judgePort_quiet (p : Port) : hasFlag (s.judgePort p).cli.flags x = hasFlag s.cli.flags x := by
  simp only [judgePort, enterLost, loseCell, loseIsolating]
  repeat' split
  all_goals simp [requestTrip_quiet _ hx, takeLatch_quiet _ hx, hasFlag_withFlag_quiet hx, quietFlags]

theorem holdStep_quiet : hasFlag s.holdStep.cli.flags x = hasFlag s.cli.flags x := by
  simp only [holdStep]
  split
  all_goals simp [requestTrip_quiet _ hx]

omit hx in
theorem referenceStep_quiet : hasFlag s.referenceStep.cli.flags x = hasFlag s.cli.flags x := by
  simp only [referenceStep]
  split
  all_goals simp

theorem computeStep_quiet : hasFlag s.computeStep.cli.flags x = hasFlag s.cli.flags x := by
  simp only [computeStep]
  repeat' split
  all_goals simp [raiseIf_quiet _ hx, quietFlags]

theorem commitStep_quiet : hasFlag s.commitStep.cli.flags x = hasFlag s.cli.flags x := by
  simp only [commitStep]
  repeat' split
  all_goals simp [raiseIf_quiet _ hx, copyBanks_quiet _ hx, quietFlags]

theorem remapCompletion_quiet : hasFlag s.remapCompletion.cli.flags x = hasFlag s.cli.flags x := by
  have h : hasFlag s.rebuild.applyRecovery.cli.flags x = hasFlag s.cli.flags x := by
    simp [applyRecovery, copyBanks_quiet _ hx]
  simp only [remapCompletion, acceptDeferred]
  repeat' split
  all_goals simp [requestTrip_quiet _ hx, h, enterAlign]

theorem sequencerStep_quiet : hasFlag s.sequencerStep.cli.flags x = hasFlag s.cli.flags x := by
  simp only [sequencerStep, stageProgress, inhibitProgress, resumeProgress, endResume]
  repeat' split
  all_goals simp [requestTrip_quiet _ hx, writeLog_quiet _ hx, remapCompletion_quiet _ hx, enterIsolate, enterRemap,
    enterAwaitGrant, enterResume]

/-- No step of a period start raises a flag of `quietFlags`. -/
theorem runStep_quiet (y : PsStep) : hasFlag (s.runStep y).cli.flags x = hasFlag s.cli.flags x := by
  have links : hasFlag s.linksStep.cli.flags x = hasFlag s.cli.flags x :=
    foldl_quiet _ (fun t p => t.judgePort_quiet hx p) _
  cases y <;> simp [runStep, failStep_quiet _ hx, windowStep_quiet _ hx, holdStep_quiet _ hx, referenceStep_quiet,
    computeStep_quiet _ hx, commitStep_quiet _ hx, sequencerStep_quiet _ hx, links]

theorem takeOne_quiet (y : PsStep) : hasFlag (s.takeOne y).cli.flags x = hasFlag s.cli.flags x := by
  simp only [takeOne]
  split
  · rfl
  · exact runStep_quiet _ hx y

theorem takeStep_quiet (y : PsStep) : hasFlag (s.takeStep y).cli.flags x = hasFlag s.cli.flags x := by
  have before : hasFlag ((s.before y).foldl takeOne s).cli.flags x = hasFlag s.cli.flags x :=
    foldl_quiet s (fun t z => t.takeOne_quiet hx z) _
  rw [takeStep, takeOne_quiet _ hx]
  simp only [prepare]
  split
  · rw [takeOne_quiet _ hx, before]
  · exact before

theorem foldl_takeStep_quiet (l : List PsStep) :
    hasFlag (l.foldl takeStep s).cli.flags x = hasFlag s.cli.flags x :=
  foldl_quiet s (fun t y => t.takeStep_quiet hx y) l

/-- The rest of a period start leaves every flag of `quietFlags` as it stands. -/
theorem completePeriod_quiet : hasFlag s.completePeriod.cli.flags x = hasFlag s.cli.flags x := by
  have h (t : State) : hasFlag t.takeHanded.cli.flags x = hasFlag t.cli.flags x :=
    foldl_quiet _ (fun t l => t.takeLatch_quiet hx l) _
  rw [completePeriod, h, updPs_cli, foldl_takeStep_quiet _ hx]

end State

end Sys2Proof.Machine
end

