-- ==== Sys2Proof/Laws/GapLaws.lean ====
section
/-! SUPPORT. The operations that move the gap count, the nest list and the stages with an episode open, and the law of
GapLaw they keep. -/

namespace Sys2Proof.Machine.State

variable {s t : State}

/-! ### The motion state held, on which the active policy rests, through a latch -/

@[simp] theorem requestTrip_motion (r : TripRequest) : (s.requestTrip r).cli.motion = s.cli.motion := by
  simp only [requestTrip]
  split <;> simp [writeLog]

@[simp] theorem acceptLatch_motion (l : Latch) : (s.acceptLatch l).cli.motion = s.cli.motion := by
  simp only [acceptLatch]
  split
  · rfl
  · split <;> simp [countLatch, writeLog]

@[simp] theorem takeLatch_motion (l : Latch) : (s.takeLatch l).cli.motion = s.cli.motion := by
  simp only [takeLatch, latchOutsideRun]
  repeat' split
  all_goals simp [countLatch, writeLog]

@[simp] theorem failAlign_motion (p : Port) : (s.failAlign p).cli.motion = s.cli.motion := by
  simp only [failAlign]
  split <;> simp

@[simp] theorem judgePort_motion (p : Port) : (s.judgePort p).cli.motion = s.cli.motion := by
  simp only [judgePort, enterLost, loseCell, loseIsolating]
  repeat' split
  all_goals simp

/-! ### The law -/

/-- GapLaw reads the sequencer only. -/
theorem GapLaw.congr (h : s.GapLaw) (hr : t.rsq = s.rsq) : t.GapLaw := by
  constructor <;> simp only [episodePolicy, hr]
  exacts [h.opened, h.below]

/-- The sequencer's part of a departure from RUN leaves no episode open. -/
theorem departRun_gapLaw (s : State) (m : Mode) : (s.departRun m).GapLaw := by
  constructor <;> simp [departRun, sequencerRest]

theorem GapLaw.requestTrip (h : s.GapLaw) (r : TripRequest) : (s.requestTrip r).GapLaw := by
  simp only [State.requestTrip]
  split
  · exact departRun_gapLaw _ _
  · exact h

/-- A push that opens an episode under a policy with a gap budget of 1 or more. -/
theorem push_gapLaw_opening (st : Stage) {e : PolicyEntry} (hn : s.rsq.nest = []) (he : 1 ≤ e.gapBudget) :
    (s.push st 0 (some e)).GapLaw := by
  constructor
  · simp [push, enterInhibit]
  · intro _
    refine ⟨e, ?_, ?_⟩ <;> simp [push, enterInhibit, episodePolicy, hn]
    omega

/-- A push on an open episode keeps its policy, and the count that it leaves is not above the one before. -/
theorem GapLaw.push (h : s.GapLaw) (st : Stage) {g : Nat} (q : Option PolicyEntry) (hn : s.rsq.nest ≠ [])
    (hg : g ≤ s.rsq.gapCount) : (s.push st g q).GapLaw := by
  obtain ⟨e, he, hb⟩ := h.below hn
  constructor
  · simp [State.push, enterInhibit]
  · intro _
    refine ⟨e, ?_, ?_⟩
    · obtain ⟨c, l, hc⟩ := List.exists_cons_of_ne_nil hn
      simpa [State.push, enterInhibit, episodePolicy, hc] using he
    · simp [State.push, enterInhibit]
      omega

theorem GapLaw.latchEffect (h : s.GapLaw) (hp : 1 ≤ s.activePolicy.gapBudget) (p : Port) :
    (s.latchEffect p).1.GapLaw := by
  have keep : ∀ t : State, t.rsq = s.rsq → t.GapLaw := fun t => h.congr
  simp only [State.latchEffect, latchActive, openEpisode, joinRecovery, pushBack]
  repeat' split
  all_goals first
    | with_reducible exact h
    | with_reducible exact push_gapLaw_opening _ (by simpa using ‹s.rsq.nest = []›) hp
    | with_reducible exact GapLaw.push (keep _ (by simp)) _ _ (by simpa using ‹¬s.rsq.nest = []›) (by simp)
    | with_reducible exact keep _ (by simp)

theorem GapLaw.acceptLatch (h : s.GapLaw) (hp : 1 ≤ s.activePolicy.gapBudget) (l : Latch) :
    (s.acceptLatch l).GapLaw := by
  have he := h.latchEffect hp l.port
  simp only [State.acceptLatch]
  split
  · exact h
  · split
    · exact (he.congr (by simp) : ((s.latchEffect l.port).1.countLatch l _ _ _).GapLaw).requestTrip _
    · exact he.congr (by simp)

theorem GapLaw.takeLatch (h : s.GapLaw) (hp : 1 ≤ s.activePolicy.gapBudget) (l : Latch) : (s.takeLatch l).GapLaw := by
  simp only [State.takeLatch]
  split
  · exact h.acceptLatch hp l
  · exact h.congr (by simp)

theorem GapLaw.holdStep (h : s.GapLaw) : s.holdStep.GapLaw := by
  have hk : (s.updCli (fun c => { c with holdCount := s.holdAfter })).GapLaw := h.congr (by simp)
  simp only [State.holdStep]
  split
  · exact hk.requestTrip _
  · exact hk

theorem GapLaw.failStep (h : s.GapLaw) : s.failStep.GapLaw := by
  have fail : ∀ p, ((s.setRetry p true).closeFailed p).GapLaw := by
    intro p
    simp only [closeFailed]
    split
    · exact GapLaw.requestTrip (h.congr (by simp)) _
    · exact h.congr (by simp)
  simp only [State.failStep]
  repeat' split
  · rename_i a _ _ _ _
    exact (fail a.port).congr (by simp)
  · exact h.congr (by simp)
  all_goals exact h

theorem GapLaw.judgePort (h : s.GapLaw) (hp : 1 ≤ s.activePolicy.gapBudget) (p : Port) : (s.judgePort p).GapLaw := by
  have ht : ((s.countPort p).updPs (fun q => { q with judged := p :: q.judged })).GapLaw := h.congr (by simp)
  simp only [State.judgePort]
  split
  · simp only [enterLost, loseCell, loseIsolating]
    repeat' split
    all_goals first
      | with_reducible exact GapLaw.requestTrip (ht.congr (by simp)) _
      | with_reducible exact GapLaw.takeLatch (ht.congr (by simp)) (by simpa [activePolicy] using hp) _
      | with_reducible exact ht.congr (by simp)
  · exact ht

theorem GapLaw.linksStep (h : s.GapLaw) (hp : 1 ≤ s.activePolicy.gapBudget) : s.linksStep.GapLaw := by
  have fold : ∀ (l : List Port) (t : State), t.GapLaw → 1 ≤ t.activePolicy.gapBudget →
      (l.foldl State.judgePort t).GapLaw := by
    intro l
    induction l with
    | nil => exact fun t ht _ => ht
    | cons p l ih =>
      exact fun t ht htp => ih _ (ht.judgePort htp p) (by simpa [activePolicy] using htp)
  exact fold _ _ h hp

theorem GapLaw.windowStep (h : s.GapLaw) (hp : 1 ≤ s.activePolicy.gapBudget) : s.windowStep.GapLaw := by
  have fold : ∀ (l : List Port) (t : State), t.GapLaw → 1 ≤ t.activePolicy.gapBudget →
      (l.foldl State.failAlign t).GapLaw := by
    intro l
    induction l with
    | nil => exact fun t ht _ => ht
    | cons p l ih =>
      intro t ht htp
      refine ih _ ?_ (by simpa [activePolicy] using htp)
      simp only [State.failAlign]
      split
      · exact ht.acceptLatch htp _
      · exact ht
  simp only [State.windowStep]
  refine fold _ _ ?_ ?_
  · split
    · exact h
    · exact h.congr (by simp)
  · split
    · exact hp
    · simpa [activePolicy] using hp

theorem GapLaw.remapCompletion (h : s.GapLaw) (hs : s.rsq.stage = .remap) : s.remapCompletion.GapLaw := by
  have hn : s.rsq.nest ≠ [] := h.opened (.inr (.inr hs))
  have hb : s.rebuild.applyRecovery.GapLaw := h.congr (by simp)
  simp only [State.remapCompletion, acceptDeferred]
  repeat' split
  all_goals first
    | with_reducible exact hb.requestTrip _
    | with_reducible exact GapLaw.requestTrip (hb.congr (by simp)) _
    | with_reducible exact GapLaw.push (hb.congr (by simp)) _ _ (by simpa using hn) (by simp)
    | exact ⟨by simp [enterAlign], fun _ => by
        simpa [enterAlign, episodePolicy] using h.below hn⟩

/-- The progression keeps the law where the gap step has not tripped the part. -/
theorem GapLaw.stageProgress (h : s.GapLaw) : s.stageProgress.GapLaw := by
  have ho := h.opened
  have hb := h.below
  simp only [State.stageProgress, inhibitProgress, resumeProgress, endResume]
  repeat' split
  all_goals first
    | with_reducible exact h
    | with_reducible exact h.remapCompletion ‹_›
    | (constructor <;>
        simp_all [enterIsolate, enterRemap, enterAwaitGrant, enterResume, episodePolicy])

theorem GapLaw.sequencerStep (h : s.GapLaw) : s.sequencerStep.GapLaw := by
  simp only [State.sequencerStep]
  split
  · split
    · simp only [State.requestTrip]
      split
      · exact departRun_gapLaw _ _
      · rename_i hm _ hx
        exact absurd (by simpa using hm) hx
    · rename_i hm hx
      refine GapLaw.stageProgress ?_
      simp only [gapStep]
      split
      · rename_i hr
        have hn : s.rsq.nest ≠ [] := by
          simp [gapRuns] at hr
          exact hr.1.1
        obtain ⟨e, he, hlt⟩ := h.below hn
        refine ⟨by simpa using h.opened, fun _ => ⟨e, by simpa [episodePolicy] using he, ?_⟩⟩
        simp [gapExpires, hm, hr, governingPolicy, he] at hx
        simpa using hx
      · exact h
  · exact h

end Sys2Proof.Machine.State
end

