-- ==== Sys2Proof/Laws/Handed.lean ====
section
/-! SUPPORT. The latches handed over are read and written by nothing in a period start but its end: each operation
commutes with putting another list of them in their place. -/

namespace Sys2Proof.Machine

/-- A state with another list of latches handed over. -/
def State.withHanded (s : State) (h : List Latch) : State := { s with ssc := { s.ssc with handed := h } }

namespace State

variable (s : State) (h : List Latch)

/-! ### The fields -/

@[simp] theorem withHanded_lines : (s.withHanded h).lines = s.lines := rfl
@[simp] theorem withHanded_mode : (s.withHanded h).mode = s.mode := rfl
@[simp] theorem withHanded_roster : (s.withHanded h).roster = s.roster := rfl
@[simp] theorem withHanded_policyStaged : (s.withHanded h).policyStaged = s.policyStaged := rfl
@[simp] theorem withHanded_policyActive : (s.withHanded h).policyActive = s.policyActive := rfl
@[simp] theorem withHanded_rsq : (s.withHanded h).rsq = s.rsq := rfl
@[simp] theorem withHanded_bau : (s.withHanded h).bau = s.bau := rfl
@[simp] theorem withHanded_rebalStaged : (s.withHanded h).rebalStaged = s.rebalStaged := rfl
@[simp] theorem withHanded_rebalActive : (s.withHanded h).rebalActive = s.rebalActive := rfl
@[simp] theorem withHanded_rtu : (s.withHanded h).rtu = s.rtu := rfl
@[simp] theorem withHanded_ctu : (s.withHanded h).ctu = s.ctu := rfl
@[simp] theorem withHanded_screenStaged : (s.withHanded h).screenStaged = s.screenStaged := rfl
@[simp] theorem withHanded_screenActive : (s.withHanded h).screenActive = s.screenActive := rfl
@[simp] theorem withHanded_links : (s.withHanded h).links = s.links := rfl
@[simp] theorem withHanded_cli : (s.withHanded h).cli = s.cli := rfl
@[simp] theorem withHanded_mga : (s.withHanded h).mga = s.mga := rfl
@[simp] theorem withHanded_settings : (s.withHanded h).settings = s.settings := rfl
@[simp] theorem withHanded_log : (s.withHanded h).log = s.log := rfl
@[simp] theorem withHanded_ps : (s.withHanded h).ps = s.ps := rfl
@[simp] theorem withHanded_pending : (s.withHanded h).pending = s.pending := rfl
@[simp] theorem withHanded_ssc : (s.withHanded h).ssc = { s.ssc with handed := h } := rfl

@[simp] theorem withHanded_withHanded (k : List Latch) : (s.withHanded k).withHanded h = s.withHanded h := rfl

/-- With no latch handed over, putting none in their place changes nothing. -/
theorem withHanded_nil (hs : s.ssc.handed = []) : s.withHanded [] = s := by
  rw [← hs]
  rfl

/-- The latches handed over are taken from a state that carries none. -/
theorem takeHanded_withHanded : (s.withHanded h).takeHanded = h.foldl takeLatch (s.withHanded []) := rfl

/-- What commutes for every element of a list commutes for the whole list. -/
theorem foldl_withHanded {α : Type} {f : State → α → State}
    (hf : ∀ t a, f (t.withHanded h) a = (f t a).withHanded h) (l : List α) (s : State) :
    l.foldl f (s.withHanded h) = (l.foldl f s).withHanded h := by
  induction l generalizing s with
  | nil => rfl
  | cons a l ih => simp only [List.foldl_cons, hf, ih]

/-! ### Machine/Ops.lean -/

@[simp] theorem entry_withHanded : (s.withHanded h).entry = s.entry := rfl

@[simp] theorem updEntry_withHanded (p : Port) (f : RosterEntry → RosterEntry) :
    (s.withHanded h).updEntry p f = (s.updEntry p f).withHanded h := rfl

@[simp] theorem mapEntries_withHanded (f : Port → RosterEntry → RosterEntry) :
    (s.withHanded h).mapEntries f = (s.mapEntries f).withHanded h := rfl

@[simp] theorem link_withHanded : (s.withHanded h).link = s.link := rfl

@[simp] theorem updLink_withHanded (p : Port) (f : Link → Link) :
    (s.withHanded h).updLink p f = (s.updLink p f).withHanded h := rfl

@[simp] theorem mapLinks_withHanded (f : Port → Link → Link) :
    (s.withHanded h).mapLinks f = (s.mapLinks f).withHanded h := rfl

@[simp] theorem cport_withHanded : (s.withHanded h).cport = s.cport := rfl

@[simp] theorem updCtu_withHanded (f : Carrier → Carrier) :
    (s.withHanded h).updCtu f = (s.updCtu f).withHanded h := rfl

@[simp] theorem updCport_withHanded (p : Port) (f : CarrierPort → CarrierPort) :
    (s.withHanded h).updCport p f = (s.updCport p f).withHanded h := rfl

@[simp] theorem mapCports_withHanded (f : Port → CarrierPort → CarrierPort) :
    (s.withHanded h).mapCports f = (s.mapCports f).withHanded h := rfl

@[simp] theorem updRsq_withHanded (f : Sequencer → Sequencer) :
    (s.withHanded h).updRsq f = (s.updRsq f).withHanded h := rfl

@[simp] theorem updBau_withHanded (f : Bypass → Bypass) :
    (s.withHanded h).updBau f = (s.updBau f).withHanded h := rfl

@[simp] theorem updRtu_withHanded (f : Transform → Transform) :
    (s.withHanded h).updRtu f = (s.updRtu f).withHanded h := rfl

@[simp] theorem updCli_withHanded (f : Control → Control) :
    (s.withHanded h).updCli f = (s.updCli f).withHanded h := rfl

@[simp] theorem updMga_withHanded (f : Agent → Agent) : (s.withHanded h).updMga f = (s.updMga f).withHanded h := rfl

@[simp] theorem updPs_withHanded (f : PeriodProgress → PeriodProgress) :
    (s.withHanded h).updPs f = (s.updPs f).withHanded h := rfl

@[simp] theorem setMode_withHanded (m : Mode) : (s.withHanded h).setMode m = (s.setMode m).withHanded h := rfl
@[simp] theorem setLines_withHanded (l : Lines) : (s.withHanded h).setLines l = (s.setLines l).withHanded h := rfl
@[simp] theorem setLog_withHanded (l : FaultLog) : (s.withHanded h).setLog l = (s.setLog l).withHanded h := rfl

@[simp] theorem setSettings_withHanded (c : Settings) :
    (s.withHanded h).setSettings c = (s.setSettings c).withHanded h := rfl

@[simp] theorem nestDepth_withHanded : (s.withHanded h).nestDepth = s.nestDepth := rfl
@[simp] theorem tag_withHanded : (s.withHanded h).tag = s.tag := rfl
@[simp] theorem episodePolicy_withHanded : (s.withHanded h).episodePolicy = s.episodePolicy := rfl
@[simp] theorem brakeDemand_withHanded : (s.withHanded h).brakeDemand = s.brakeDemand := rfl
@[simp] theorem tripLine_withHanded : (s.withHanded h).tripLine = s.tripLine := rfl
@[simp] theorem inGapStage_withHanded : (s.withHanded h).inGapStage = s.inGapStage := rfl
@[simp] theorem torqueGap_withHanded : (s.withHanded h).torqueGap = s.torqueGap := rfl
@[simp] theorem raise_withHanded (f : Flag) : (s.withHanded h).raise f = (s.raise f).withHanded h := rfl
@[simp] theorem recordOf_withHanded : (s.withHanded h).recordOf = s.recordOf := rfl

@[simp] theorem writeLog_withHanded (e : LogEntry) :
    (s.withHanded h).writeLog e = (s.writeLog e).withHanded h := rfl

@[simp] theorem entryNow_withHanded : (s.withHanded h).entryNow = s.entryNow := rfl

/-! ### Machine/Roster.lean -/

@[simp] theorem stringKey_withHanded : (s.withHanded h).stringKey = s.stringKey := rfl
@[simp] theorem phaseString_withHanded : (s.withHanded h).phaseString = s.phaseString := rfl
@[simp] theorem stringLength_withHanded : (s.withHanded h).stringLength = s.stringLength := rfl
@[simp] theorem stringCells_withHanded : (s.withHanded h).stringCells = s.stringCells := rfl
@[simp] theorem activeCount_withHanded : (s.withHanded h).activeCount = s.activeCount := rfl
@[simp] theorem deficit_withHanded : (s.withHanded h).deficit = s.deficit := rfl
@[simp] theorem deficits_withHanded : (s.withHanded h).deficits = s.deficits := rfl
@[simp] theorem queued_withHanded : (s.withHanded h).queued = s.queued := rfl
@[simp] theorem closureConfirmed_withHanded : (s.withHanded h).closureConfirmed = s.closureConfirmed := rfl
@[simp] theorem closureOk_withHanded : (s.withHanded h).closureOk = s.closureOk := rfl
@[simp] theorem openingConfirmed_withHanded : (s.withHanded h).openingConfirmed = s.openingConfirmed := rfl
@[simp] theorem spareFor?_withHanded : (s.withHanded h).spareFor? = s.spareFor? := rfl
@[simp] theorem eligible_withHanded : (s.withHanded h).eligible = s.eligible := rfl
@[simp] theorem bestSpare?_withHanded : (s.withHanded h).bestSpare? = s.bestSpare? := rfl

@[simp] theorem assignSpare_withHanded (p : Port) :
    (s.withHanded h).assignSpare p = (s.assignSpare p).withHanded h := by
  simp only [assignSpare]
  split <;> simp_all

@[simp] theorem foldl_assignSpare_withHanded (l : List Port) :
    l.foldl assignSpare (s.withHanded h) = (l.foldl assignSpare s).withHanded h := foldl_withHanded h (by simp) l s

@[simp] theorem unserved_withHanded : (s.withHanded h).unserved = s.unserved := rfl
@[simp] theorem spareAllowed_withHanded : (s.withHanded h).spareAllowed = s.spareAllowed := rfl

@[simp] theorem selectSpares_withHanded : (s.withHanded h).selectSpares = s.selectSpares.withHanded h := by
  simp only [selectSpares]
  split <;> simp_all

@[simp] theorem selectionStage_withHanded : (s.withHanded h).selectionStage = s.selectionStage := rfl

@[simp] theorem reselect_withHanded : (s.withHanded h).reselect = s.reselect.withHanded h := by
  simp only [reselect]
  split <;> simp_all

@[simp] theorem deselect_withHanded (p : Port) : (s.withHanded h).deselect p = (s.deselect p).withHanded h := rfl
@[simp] theorem renumbered_withHanded : (s.withHanded h).renumbered = s.renumbered := rfl

@[simp] theorem renumberPhase_withHanded (x : Phase) :
    (s.withHanded h).renumberPhase x = (s.renumberPhase x).withHanded h := rfl

@[simp] theorem renumber_withHanded : (s.withHanded h).renumber = s.renumber.withHanded h := rfl
@[simp] theorem rebuiltEntry_withHanded : (s.withHanded h).rebuiltEntry = s.rebuiltEntry := rfl

@[simp] theorem rebuild_withHanded : (s.withHanded h).rebuild = s.rebuild.withHanded h := by
  simp [rebuild]

@[simp] theorem compactedEntry_withHanded : (s.withHanded h).compactedEntry = s.compactedEntry := rfl

@[simp] theorem compact_withHanded : (s.withHanded h).compact = s.compact.withHanded h := by
  simp [compact]

/-! ### Machine/Departure.lean -/

@[simp] theorem urgentFrame_withHanded : (s.withHanded h).urgentFrame = s.urgentFrame := rfl

@[simp] theorem urgentZero_withHanded (p : Port) :
    (s.withHanded h).urgentZero p = (s.urgentZero p).withHanded h := rfl

@[simp] theorem urgentBlock_withHanded : (s.withHanded h).urgentBlock = s.urgentBlock.withHanded h := rfl
@[simp] theorem closeWindow_withHanded : (s.withHanded h).closeWindow = s.closeWindow.withHanded h := rfl
@[simp] theorem sequencerRest_withHanded : (s.withHanded h).sequencerRest = s.sequencerRest.withHanded h := rfl
@[simp] theorem pruneQueue_withHanded : (s.withHanded h).pruneQueue = s.pruneQueue.withHanded h := rfl

@[simp] theorem departRun_withHanded (m : Mode) : (s.withHanded h).departRun m = (s.departRun m).withHanded h := by
  simp [departRun]

@[simp] theorem requestTrip_withHanded (t : TripRequest) :
    (s.withHanded h).requestTrip t = (s.requestTrip t).withHanded h := by
  simp only [requestTrip]
  split <;> simp_all

/-! ### Machine/Latch.lean -/

@[simp] theorem makeIsolating_withHanded (p : Port) :
    (s.withHanded h).makeIsolating p = (s.makeIsolating p).withHanded h := rfl

@[simp] theorem foldl_makeIsolating_withHanded (l : List Port) :
    l.foldl makeIsolating (s.withHanded h) = (l.foldl makeIsolating s).withHanded h := foldl_withHanded h (by simp) l s

@[simp] theorem enterInhibit_withHanded : (s.withHanded h).enterInhibit = s.enterInhibit.withHanded h := rfl

@[simp] theorem push_withHanded (interrupted : Stage) (gap : Nat) (policy : Option PolicyEntry) :
    (s.withHanded h).push interrupted gap policy = (s.push interrupted gap policy).withHanded h := rfl

@[simp] theorem activePolicy_withHanded : (s.withHanded h).activePolicy = s.activePolicy := rfl
@[simp] theorem governingPolicy_withHanded : (s.withHanded h).governingPolicy = s.governingPolicy := rfl
@[simp] theorem blindForbidden_withHanded : (s.withHanded h).blindForbidden = s.blindForbidden := rfl

@[simp] theorem openEpisode_withHanded (p : Port) :
    (s.withHanded h).openEpisode p = ((s.openEpisode p).1.withHanded h, (s.openEpisode p).2) := by
  simp only [openEpisode]
  split <;> first | (simp_all; done) | (split <;> simp_all)

@[simp] theorem stopSettle_withHanded : (s.withHanded h).stopSettle = s.stopSettle.withHanded h := by
  simp only [stopSettle]
  split <;> simp_all

@[simp] theorem joinRecovery_withHanded (p : Port) :
    (s.withHanded h).joinRecovery p = ((s.joinRecovery p).1.withHanded h, (s.joinRecovery p).2) := by
  simp only [joinRecovery]
  split <;> simp_all

@[simp] theorem deferLatch_withHanded (p : Port) :
    (s.withHanded h).deferLatch p = (s.deferLatch p).withHanded h := rfl

@[simp] theorem pushBack_withHanded (p : Port) (gap : Nat) :
    (s.withHanded h).pushBack p gap = ((s.pushBack p gap).1.withHanded h, (s.pushBack p gap).2) := by
  simp [pushBack]
  split <;> first | (simp_all; done) | (split <;> simp_all)

@[simp] theorem latchActive_withHanded (p : Port) :
    (s.withHanded h).latchActive p = ((s.latchActive p).1.withHanded h, (s.latchActive p).2) := by
  simp only [latchActive]
  split <;> first | (simp_all; done) | (split <;> simp_all)

@[simp] theorem retireSpare_withHanded (p : Port) :
    (s.withHanded h).retireSpare p = (s.retireSpare p).withHanded h := by
  simp only [retireSpare]
  split <;> simp_all

@[simp] theorem latchEffect_withHanded (p : Port) :
    (s.withHanded h).latchEffect p = ((s.latchEffect p).1.withHanded h, (s.latchEffect p).2) := by
  simp only [latchEffect]
  split <;> first | (simp_all; done) | (split <;> simp_all)

@[simp] theorem countLatch_withHanded (l : Latch) (m : Mode) (st : Stage) (depth : Nat) :
    (s.withHanded h).countLatch l m st depth = (s.countLatch l m st depth).withHanded h := rfl

@[simp] theorem acceptLatch_withHanded (l : Latch) :
    (s.withHanded h).acceptLatch l = (s.acceptLatch l).withHanded h := by
  simp only [acceptLatch]
  split <;> first | (simp_all; done) | (split <;> simp_all)

@[simp] theorem latchOutsideRun_withHanded (l : Latch) :
    (s.withHanded h).latchOutsideRun l = (s.latchOutsideRun l).withHanded h := by
  simp only [latchOutsideRun]
  split <;> simp_all

@[simp] theorem takeLatch_withHanded (l : Latch) : (s.withHanded h).takeLatch l = (s.takeLatch l).withHanded h := by
  simp only [takeLatch]
  split <;> simp_all

@[simp] theorem foldl_takeLatch_withHanded (l : List Latch) :
    l.foldl takeLatch (s.withHanded h) = (l.foldl takeLatch s).withHanded h := foldl_withHanded h (by simp) l s

/-! ### Machine/Actuation.lean -/

@[simp] theorem supplyStep_withHanded : (s.withHanded h).supplyStep = s.supplyStep.withHanded h := rfl
@[simp] theorem inFlight?_withHanded : (s.withHanded h).inFlight? = s.inFlight? := rfl
@[simp] theorem dropHead_withHanded : (s.withHanded h).dropHead = s.dropHead.withHanded h := rfl

@[simp] theorem setRetry_withHanded (p : Port) (on : Bool) :
    (s.withHanded h).setRetry p on = (s.setRetry p on).withHanded h := rfl

@[simp] theorem closeFailed_withHanded (p : Port) :
    (s.withHanded h).closeFailed p = (s.closeFailed p).withHanded h := by
  simp only [closeFailed]
  split <;> first | (simp_all; done) | (split <;> simp_all)

@[simp] theorem retryNext_withHanded (p : Port) : (s.withHanded h).retryNext p = (s.retryNext p).withHanded h := rfl

@[simp] theorem openFailed_withHanded (p : Port) :
    (s.withHanded h).openFailed p = (s.openFailed p).withHanded h := by
  unfold openFailed
  by_cases a : (s.entry p).role = .spare
  · have a' : ((s.withHanded h).entry p).role = .spare := a
    rw [if_pos a, if_pos a']
    rfl
  · have a' : ¬((s.withHanded h).entry p).role = .spare := a
    rw [if_neg a, if_neg a']
    by_cases b : (s.entry p).role = .active ∧ s.mode ≠ .run
    · have b' : ((s.withHanded h).entry p).role = .active ∧ (s.withHanded h).mode ≠ .run := b
      rw [if_pos b, if_pos b']
      rfl
    · have b' : ¬(((s.withHanded h).entry p).role = .active ∧ (s.withHanded h).mode ≠ .run) := b
      rw [if_neg b, if_neg b']
      rfl

@[simp] theorem windowClosed_withHanded : (s.withHanded h).windowClosed = s.windowClosed := rfl

@[simp] theorem failStep_withHanded : (s.withHanded h).failStep = s.failStep.withHanded h := by
  simp only [failStep]
  split <;> first | (simp_all; done) | (split <;> first | (simp_all; done) | (split <;> simp_all))

@[simp] theorem selectStep_withHanded : (s.withHanded h).selectStep = s.selectStep.withHanded h := by
  simp only [selectStep]
  split <;> simp_all

@[simp] theorem deemable_withHanded : (s.withHanded h).deemable = s.deemable := rfl

@[simp] theorem deemClosed_withHanded (p : Port) :
    (s.withHanded h).deemClosed p = (s.deemClosed p).withHanded h := by
  simp only [deemClosed]
  split <;> simp_all

@[simp] theorem foldl_deemClosed_withHanded (l : List Port) :
    l.foldl deemClosed (s.withHanded h) = (l.foldl deemClosed s).withHanded h := foldl_withHanded h (by simp) l s

@[simp] theorem deemStep_withHanded : (s.withHanded h).deemStep = s.deemStep.withHanded h := by
  simp [deemStep]

@[simp] theorem reconcileDir?_withHanded : (s.withHanded h).reconcileDir? = s.reconcileDir? := rfl
@[simp] theorem reconcileEntries_withHanded : (s.withHanded h).reconcileEntries = s.reconcileEntries := rfl
@[simp] theorem reconcileStep_withHanded : (s.withHanded h).reconcileStep = s.reconcileStep.withHanded h := rfl
@[simp] theorem isolateComplete_withHanded : (s.withHanded h).isolateComplete = s.isolateComplete := rfl

@[simp] theorem settleStep_withHanded : (s.withHanded h).settleStep = s.settleStep.withHanded h := by
  unfold settleStep
  by_cases a : s.mode = .run ∧ s.ps.stageEnded = .isolate
  · have a' : (s.withHanded h).mode = .run ∧ (s.withHanded h).ps.stageEnded = .isolate := a
    rw [if_pos a, if_pos a']
    by_cases b : s.isolateComplete = true
    · have b' : (s.withHanded h).isolateComplete = true := b
      rw [if_pos b, if_pos b']
      rfl
    · have b' : ¬(s.withHanded h).isolateComplete = true := b
      rw [if_neg b, if_neg b']
      rfl
  · have a' : ¬((s.withHanded h).mode = .run ∧ (s.withHanded h).ps.stageEnded = .isolate) := a
    rw [if_neg a, if_neg a']

@[simp] theorem mayIssue_withHanded : (s.withHanded h).mayIssue = s.mayIssue := rfl
@[simp] theorem issuable?_withHanded : (s.withHanded h).issuable? = s.issuable? := rfl

@[simp] theorem issueStep_withHanded : (s.withHanded h).issueStep = s.issueStep.withHanded h := by
  simp only [issueStep]
  split <;> simp_all

@[simp] theorem dropWaiting_withHanded (p : Port) :
    (s.withHanded h).dropWaiting p = (s.dropWaiting p).withHanded h := rfl

/-! ### Machine/Alignment.lean -/

@[simp] theorem targetNow_withHanded : (s.withHanded h).targetNow = s.targetNow := rfl
@[simp] theorem captureOf_withHanded : (s.withHanded h).captureOf = s.captureOf := rfl
@[simp] theorem aligning_withHanded : (s.withHanded h).aligning = s.aligning := rfl

@[simp] theorem takeCapture_withHanded (p : Port) (c : Nat) :
    (s.withHanded h).takeCapture p c = (s.takeCapture p c).withHanded h := by
  simp only [takeCapture, captureOf_withHanded]
  cases (s.captureOf p c).error with
  | none => rfl
  | some e =>
    by_cases a : (s.cport p).sent.judges = true
    · have a' : ((s.withHanded h).cport p).sent.judges = true := a
      simp only [if_pos a, if_pos a']
      by_cases b : s.aligning = true ∧ (s.entry p).inString = true
      · have b' : (s.withHanded h).aligning = true ∧ ((s.withHanded h).entry p).inString = true := b
        simp only [if_pos b, if_pos b']
        rfl
      · have b' : ¬((s.withHanded h).aligning = true ∧ ((s.withHanded h).entry p).inString = true) := b
        simp only [if_neg b, if_neg b']
        rfl
    · have a' : ¬((s.withHanded h).cport p).sent.judges = true := a
      simp only [if_neg a, if_neg a']
      rfl

@[simp] theorem usableError?_withHanded : (s.withHanded h).usableError? = s.usableError? := rfl
@[simp] theorem trimPlan_withHanded : (s.withHanded h).trimPlan = s.trimPlan := rfl
@[simp] theorem loadPlan_withHanded : (s.withHanded h).loadPlan = s.loadPlan := rfl
@[simp] theorem beginAlign_withHanded : (s.withHanded h).beginAlign = s.beginAlign := rfl
@[simp] theorem continueAlign_withHanded : (s.withHanded h).continueAlign = s.continueAlign := rfl
@[simp] theorem otherPlan_withHanded : (s.withHanded h).otherPlan = s.otherPlan := rfl
@[simp] theorem plannedPort_withHanded : (s.withHanded h).plannedPort = s.plannedPort := rfl

@[simp] theorem planStep_withHanded : (s.withHanded h).planStep = s.planStep.withHanded h := by
  simp [planStep]

@[simp] theorem allAligned_withHanded : (s.withHanded h).allAligned = s.allAligned := rfl
@[simp] theorem windowFailures_withHanded : (s.withHanded h).windowFailures = s.windowFailures := rfl

@[simp] theorem failAlign_withHanded (p : Port) : (s.withHanded h).failAlign p = (s.failAlign p).withHanded h := by
  simp only [failAlign]
  split <;> simp_all

@[simp] theorem foldl_failAlign_withHanded (l : List Port) :
    l.foldl failAlign (s.withHanded h) = (l.foldl failAlign s).withHanded h := foldl_withHanded h (by simp) l s

@[simp] theorem windowStep_withHanded : (s.withHanded h).windowStep = s.windowStep.withHanded h := by
  simp only [windowStep]
  split <;> simp_all

/-! ### Machine/Modulation.lean -/

@[simp] theorem referenceStep_withHanded : (s.withHanded h).referenceStep = s.referenceStep.withHanded h := by
  simp only [referenceStep]
  split <;> simp_all

@[simp] theorem switching_withHanded : (s.withHanded h).switching = s.switching := rfl
@[simp] theorem phaseOut_withHanded : (s.withHanded h).phaseOut = s.phaseOut := rfl

@[simp] theorem storeOutputs_withHanded (i : Fin 64) (o : Phase → PhaseOut) :
    (s.withHanded h).storeOutputs i o = (s.storeOutputs i o).withHanded h := rfl

@[simp] theorem raiseIf_withHanded (c : Bool) (f : Flag) :
    (s.withHanded h).raiseIf c f = (s.raiseIf c f).withHanded h := by
  simp only [raiseIf]
  split <;> simp_all

@[simp] theorem computeStep_withHanded : (s.withHanded h).computeStep = s.computeStep.withHanded h := by
  simp only [computeStep]
  split <;> first | (simp_all; done) | (split <;> simp_all)

/-! ### Machine/Screening.lean -/

@[simp] theorem leakDue_withHanded : (s.withHanded h).leakDue = s.leakDue := rfl

@[simp] theorem leakStep_withHanded : (s.withHanded h).leakStep = s.leakStep.withHanded h := by
  unfold leakStep
  by_cases a : s.leakDue = true
  · have a' : (s.withHanded h).leakDue = true := a
    rw [if_pos a, if_pos a']
    rfl
  · have a' : ¬(s.withHanded h).leakDue = true := a
    rw [if_neg a, if_neg a']
    rfl

/-! ### Machine/Ports.lean -/

@[simp] theorem loseIsolating_withHanded (p : Port) :
    (s.withHanded h).loseIsolating p = (s.loseIsolating p).withHanded h := by
  simp only [loseIsolating]
  split <;> first | (simp_all; done) | (split <;> simp_all)

@[simp] theorem loseCell_withHanded (p : Port) : (s.withHanded h).loseCell p = (s.loseCell p).withHanded h := by
  simp only [loseCell]
  split <;> first | (simp_all; done) | (split <;> simp_all)

@[simp] theorem enterLost_withHanded (p : Port) : (s.withHanded h).enterLost p = (s.enterLost p).withHanded h := by
  simp [enterLost]

@[simp] theorem linkingCounts_withHanded : (s.withHanded h).linkingCounts = s.linkingCounts := rfl
@[simp] theorem misses_withHanded : (s.withHanded h).misses = s.misses := rfl
@[simp] theorem losesPort_withHanded : (s.withHanded h).losesPort = s.losesPort := rfl

@[simp] theorem countPort_withHanded (p : Port) : (s.withHanded h).countPort p = (s.countPort p).withHanded h := by
  simp only [countPort]
  split <;> first | (simp_all; done) | (split <;> simp_all)

@[simp] theorem judgePort_withHanded (p : Port) : (s.withHanded h).judgePort p = (s.judgePort p).withHanded h := by
  simp only [judgePort]
  split <;> simp_all

@[simp] theorem foldl_judgePort_withHanded (l : List Port) :
    l.foldl judgePort (s.withHanded h) = (l.foldl judgePort s).withHanded h := foldl_withHanded h (by simp) l s

@[simp] theorem linksStep_withHanded : (s.withHanded h).linksStep = s.linksStep.withHanded h := by
  simp [linksStep]

@[simp] theorem periodCommand_withHanded : (s.withHanded h).periodCommand = s.periodCommand := rfl
@[simp] theorem carriedPlan_withHanded : (s.withHanded h).carriedPlan = s.carriedPlan := rfl
@[simp] theorem periodFrame_withHanded : (s.withHanded h).periodFrame = s.periodFrame := rfl
@[simp] theorem composedPort_withHanded : (s.withHanded h).composedPort = s.composedPort := rfl
@[simp] theorem composeStep_withHanded : (s.withHanded h).composeStep = s.composeStep.withHanded h := rfl

/-! ### Machine/Traffic.lean -/

@[simp] theorem bufferedRequests_withHanded : (s.withHanded h).bufferedRequests = s.bufferedRequests := rfl
@[simp] theorem newestLog_withHanded : (s.withHanded h).newestLog = s.newestLog := rfl
@[simp] theorem digestNow_withHanded : (s.withHanded h).digestNow = s.digestNow := rfl
@[simp] theorem placeDigest_withHanded : (s.withHanded h).placeDigest = s.placeDigest.withHanded h := rfl
@[simp] theorem holdTrips_withHanded : (s.withHanded h).holdTrips = s.holdTrips := rfl
@[simp] theorem holdAfter_withHanded : (s.withHanded h).holdAfter = s.holdAfter := rfl

@[simp] theorem holdStep_withHanded : (s.withHanded h).holdStep = s.holdStep.withHanded h := by
  simp only [holdStep]
  split <;> simp_all

/-! ### Machine/Commits.lean -/

@[simp] theorem copyBank_withHanded (g : Group) : (s.withHanded h).copyBank g = (s.copyBank g).withHanded h := by
  cases g <;> rfl

@[simp] theorem foldl_copyBank_withHanded (l : List Group) :
    l.foldl copyBank (s.withHanded h) = (l.foldl copyBank s).withHanded h := foldl_withHanded h (by simp) l s

@[simp] theorem copyBanks_withHanded (gs : List Group) :
    (s.withHanded h).copyBanks gs = (s.copyBanks gs).withHanded h := by
  simp [copyBanks]

@[simp] theorem stagedLookup_withHanded : (s.withHanded h).stagedLookup = s.stagedLookup := rfl
@[simp] theorem activeLookup_withHanded : (s.withHanded h).activeLookup = s.activeLookup := rfl
@[simp] theorem recoveryDue_withHanded : (s.withHanded h).recoveryDue = s.recoveryDue := rfl

@[simp] theorem applyRecovery_withHanded : (s.withHanded h).applyRecovery = s.applyRecovery.withHanded h := by
  simp [applyRecovery]

@[simp] theorem periodCommitOpen_withHanded : (s.withHanded h).periodCommitOpen = s.periodCommitOpen := rfl
@[simp] theorem periodDue_withHanded : (s.withHanded h).periodDue = s.periodDue := rfl
@[simp] theorem commitDrops_withHanded : (s.withHanded h).commitDrops = s.commitDrops := rfl

@[simp] theorem commitStep_withHanded : (s.withHanded h).commitStep = s.commitStep.withHanded h := by
  simp only [commitStep]
  split <;> simp_all

/-! ### Machine/Requests.lean -/

@[simp] theorem buffer_withHanded : (s.withHanded h).buffer = s.buffer := rfl

@[simp] theorem setBuffer_withHanded (b : Fin 2) (v : Buffer) :
    (s.withHanded h).setBuffer b v = (s.setBuffer b v).withHanded h := rfl

@[simp] theorem oldestReply?_withHanded : (s.withHanded h).oldestReply? = s.oldestReply? := rfl

@[simp] theorem sendReply_withHanded (b : Fin 2) :
    (s.withHanded h).sendReply b = (s.sendReply b).withHanded h := rfl

/-! ### Machine/Resets.lean -/

@[simp] theorem modeByLine_withHanded : (s.withHanded h).modeByLine = s.modeByLine := rfl
@[simp] theorem warmBypass_withHanded : (s.withHanded h).warmBypass = s.warmBypass := rfl
@[simp] theorem warmDrops_withHanded : (s.withHanded h).warmDrops = s.warmDrops := rfl

@[simp] theorem warmMode_withHanded : (s.withHanded h).warmMode = s.warmMode.withHanded h := by
  simp only [warmMode]
  split <;> first | (simp_all; done) | (split <;> simp_all)

@[simp] theorem warmReset_withHanded : (s.withHanded h).warmReset = s.warmReset.withHanded h := by
  have leak (t : State) : (t.withHanded h).updSsc (fun c => { c with leakCount := 0 }) =
      (t.updSsc (fun c => { c with leakCount := 0 })).withHanded h := rfl
  simp [warmReset, leak]

@[simp] theorem warmEffect_withHanded : (s.withHanded h).warmEffect = s.warmEffect.withHanded h := by
  simp only [warmEffect]
  split <;> simp_all

@[simp] theorem replyEnds_withHanded : (s.withHanded h).replyEnds = s.replyEnds.withHanded h := by
  simp [replyEnds]
  split
  · split <;> simp_all
  · rfl

@[simp] theorem foldl_replyEnds_withHanded (l : List UpFrame) :
    l.foldl (fun t (_ : UpFrame) => t.replyEnds) (s.withHanded h) =
      (l.foldl (fun t (_ : UpFrame) => t.replyEnds) s).withHanded h := foldl_withHanded h (by simp) l s

@[simp] theorem dueUpstream_withHanded : (s.withHanded h).dueUpstream = s.dueUpstream := rfl

@[simp] theorem sendDue_withHanded : (s.withHanded h).sendDue = s.sendDue.withHanded h := by
  simp [sendDue]

/-! ### Machine/Sequencing.lean -/

@[simp] theorem resumeDue_withHanded : (s.withHanded h).resumeDue = s.resumeDue := rfl
@[simp] theorem gapRuns_withHanded : (s.withHanded h).gapRuns = s.gapRuns := rfl
@[simp] theorem gapExpires_withHanded : (s.withHanded h).gapExpires = s.gapExpires := rfl

@[simp] theorem gapStep_withHanded : (s.withHanded h).gapStep = s.gapStep.withHanded h := by
  simp only [gapStep]
  split <;> simp_all

@[simp] theorem enterIsolate_withHanded : (s.withHanded h).enterIsolate = s.enterIsolate.withHanded h := by
  simp [enterIsolate]

@[simp] theorem inhibitProgress_withHanded : (s.withHanded h).inhibitProgress = s.inhibitProgress.withHanded h := by
  simp [inhibitProgress]
  split <;> first | (simp_all; done) | (split <;> simp_all)

@[simp] theorem enterRemap_withHanded : (s.withHanded h).enterRemap = s.enterRemap.withHanded h := rfl
@[simp] theorem enterAlign_withHanded : (s.withHanded h).enterAlign = s.enterAlign.withHanded h := rfl
@[simp] theorem deferredCells_withHanded : (s.withHanded h).deferredCells = s.deferredCells := rfl

@[simp] theorem acceptDeferred_withHanded (ps : List Port) :
    (s.withHanded h).acceptDeferred ps = (s.acceptDeferred ps).withHanded h := by
  simp [acceptDeferred]
  split <;> first | (simp_all; done) | (split <;> simp_all)

@[simp] theorem remapCompletion_withHanded : (s.withHanded h).remapCompletion = s.remapCompletion.withHanded h := by
  simp only [remapCompletion]
  split <;> first | (simp_all; done) | (split <;> simp_all)

@[simp] theorem enterAwaitGrant_withHanded :
    (s.withHanded h).enterAwaitGrant = s.enterAwaitGrant.withHanded h := rfl

@[simp] theorem enterResume_withHanded : (s.withHanded h).enterResume = s.enterResume.withHanded h := rfl

@[simp] theorem endResume_withHanded : (s.withHanded h).endResume = s.endResume.withHanded h := by
  simp only [endResume]
  split <;> simp_all

@[simp] theorem resumeProgress_withHanded : (s.withHanded h).resumeProgress = s.resumeProgress.withHanded h := by
  simp only [resumeProgress]
  split <;> first | (simp_all; done) | (split <;> simp_all)

@[simp] theorem stageProgress_withHanded : (s.withHanded h).stageProgress = s.stageProgress.withHanded h := by
  simp only [stageProgress]
  split <;> first | (simp_all; done) | (split <;> simp_all)

@[simp] theorem sequencerStep_withHanded : (s.withHanded h).sequencerStep = s.sequencerStep.withHanded h := by
  simp only [sequencerStep]
  split <;> first | (simp_all; done) | (split <;> simp_all)

/-! ### Machine/PeriodStart.lean -/

@[simp] theorem startCycle_withHanded : (s.withHanded h).startCycle = s.startCycle.withHanded h := rfl
@[simp] theorem startProgress_withHanded : (s.withHanded h).startProgress = s.startProgress := rfl
@[simp] theorem enterPeriod_withHanded : (s.withHanded h).enterPeriod = s.enterPeriod.withHanded h := rfl

@[simp] theorem beginPeriod_withHanded : (s.withHanded h).beginPeriod = s.beginPeriod.withHanded h := by
  simp [beginPeriod]

@[simp] theorem runStep_withHanded (x : PsStep) : (s.withHanded h).runStep x = (s.runStep x).withHanded h := by
  simp only [runStep]
  split <;> simp_all

@[simp] theorem coreSteps_withHanded : (s.withHanded h).coreSteps = s.coreSteps := rfl

@[simp] theorem failTrips_withHanded : (s.withHanded h).failTrips = s.failTrips := by
  simp [failTrips]

@[simp] theorem tripsMeet_withHanded : (s.withHanded h).tripsMeet = s.tripsMeet := by
  simp [tripsMeet]

@[simp] theorem beforeSequencer_withHanded : (s.withHanded h).beforeSequencer = s.beforeSequencer := by
  simp [beforeSequencer]

@[simp] theorem modeSteps_withHanded : (s.withHanded h).modeSteps = s.modeSteps := by
  simp [modeSteps]

@[simp] theorem before_withHanded : (s.withHanded h).before = s.before := by
  funext x
  cases x <;> simp [before]

@[simp] theorem takeOne_withHanded (x : PsStep) : (s.withHanded h).takeOne x = (s.takeOne x).withHanded h := by
  simp only [takeOne]
  split <;> simp_all

@[simp] theorem foldl_takeOne_withHanded (l : List PsStep) :
    l.foldl takeOne (s.withHanded h) = (l.foldl takeOne s).withHanded h := foldl_withHanded h (by simp) l s

@[simp] theorem linksTrip_withHanded : (s.withHanded h).linksTrip = s.linksTrip := by
  simp [linksTrip]

@[simp] theorem lossFirst_withHanded : (s.withHanded h).lossFirst = s.lossFirst := by
  funext x
  cases x <;> simp [lossFirst]

@[simp] theorem prepare_withHanded (x : PsStep) : (s.withHanded h).prepare x = (s.prepare x).withHanded h := by
  simp only [prepare]
  split <;> simp_all

@[simp] theorem takeStep_withHanded (x : PsStep) : (s.withHanded h).takeStep x = (s.takeStep x).withHanded h := by
  simp [takeStep]

@[simp] theorem foldl_takeStep_withHanded (l : List PsStep) :
    l.foldl takeStep (s.withHanded h) = (l.foldl takeStep s).withHanded h := foldl_withHanded h (by simp) l s

@[simp] theorem openPeriod_withHanded : (s.withHanded h).openPeriod = s.openPeriod.withHanded h := by
  simp only [openPeriod]
  split <;> simp_all

@[simp] theorem setSupply_withHanded (ok : Bool) :
    (s.withHanded h).setSupply ok = (s.setSupply ok).withHanded h := rfl

end State

end Sys2Proof.Machine
end

