-- ==== Sys2Proof/Laws/RosterLaws.lean ====
section
/-! SUPPORT. The operations that change roles, positions, insertion targets and deferred marks, and the laws of the
roster they keep (RosterLaw, QuietLaw). -/

namespace Sys2Proof.Machine

/-- Two entries agree on what the laws of the roster read. -/
structure SameCell (e e' : RosterEntry) : Prop where
  role : e'.role = e.role
  installed : e'.installed = e.installed
  position : e'.position.isSome = e.position.isSome
  target : e'.insertionTarget = e.insertionTarget
  deferred : e'.deferred = e.deferred

theorem SameCell.refl (e : RosterEntry) : SameCell e e := ⟨rfl, rfl, rfl, rfl, rfl⟩

theorem SameCell.law {e e' : RosterEntry} (h : SameCell e e') (l : e.Law) : e'.Law := by
  have hs : e'.inString = e.inString := by simp [RosterEntry.inString, h.role]
  constructor
  · rw [h.position, hs]; exact l.position
  · rw [h.installed, h.role]; exact l.installed
  · rw [h.target, h.role]; exact l.target
  · rw [h.deferred, h.role]; exact l.deferred

/-- The laws of the roster together, with the mode they need. -/
def State.CellLaw (s : State) : Prop := s.RosterLaw ∧ s.QuietLaw

namespace State

variable {s t : State}

/-- The laws pass to a state whose entries agree on what they read. -/
theorem CellLaw.same (h : s.CellLaw) (he : ∀ p, SameCell (s.entry p) (t.entry p)) (hm : t.mode = s.mode)
    (hg : t.mga.warmPending = s.mga.warmPending) : t.CellLaw := by
  obtain ⟨⟨h1, h2, h3⟩, h4, h5⟩ := h
  refine ⟨⟨fun p => (he p).law (h1 p), ?_, ?_⟩, ?_, ?_⟩
  · intro p q hq
    rw [(he p).target] at hq
    rw [(he q).role]
    exact h2 p q hq
  · intro p p' q hq hq'
    rw [(he p).target] at hq
    rw [(he p').target] at hq'
    exact h3 p p' q hq hq'
  · intro hne p
    rw [hm] at hne
    rw [(he p).role, (he p).deferred]
    exact h4 hne p
  · rw [hm, hg]; exact h5

theorem CellLaw.congr (h : s.CellLaw) (hr : t.roster = s.roster) (hm : t.mode = s.mode)
    (hg : t.mga.warmPending = s.mga.warmPending) : t.CellLaw :=
  h.same (fun p => by simp only [entry, hr]; exact .refl _) hm hg

theorem CellLaw.updEntry (h : s.CellLaw) (p : Port) (f : RosterEntry → RosterEntry)
    (hf : SameCell (s.entry p) (f (s.entry p))) : (s.updEntry p f).CellLaw := by
  refine h.same ?_ rfl rfl
  intro q
  rw [updEntry_entry]
  split
  · subst_vars; exact hf
  · exact .refl _

/-- An entry changed to one that holds no target, where no spare names the port. -/
theorem CellLaw.settle (h : s.CellLaw) (p : Port) (f : RosterEntry → RosterEntry) (hl : (f (s.entry p)).Law)
    (ht : (f (s.entry p)).insertionTarget = none)
    (hi : (s.entry p).role = .isolating → (f (s.entry p)).role = .isolating)
    (hq : s.mode ≠ .run → (f (s.entry p)).role ≠ .isolating ∧ (f (s.entry p)).deferred = false) :
    (s.updEntry p f).CellLaw := by
  obtain ⟨⟨h1, h2, h3⟩, h4, h5⟩ := h
  have he := updEntry_entry s p f
  refine ⟨⟨?_, ?_, ?_⟩, ?_, ?_⟩
  · intro q
    rw [he]
    split
    · exact hl
    · exact h1 q
  · intro a q hq
    rw [he] at hq
    split at hq
    · rw [ht] at hq; cases hq
    · have := h2 a q hq
      rw [he]
      split
      · subst_vars; exact ⟨hi this.1, this.2⟩
      · exact this
  · intro a b q ha hb
    rw [he] at ha hb
    split at ha
    · rw [ht] at ha; cases ha
    · split at hb
      · rw [ht] at hb; cases hb
      · exact h3 a b q ha hb
  · intro hm q
    rw [he]
    split
    · exact hq (by simpa using hm)
    · exact h4 (by simpa using hm) q
  · simpa using h5

/-! ### Selection -/

theorem CellLaw.assignSpare (h : s.CellLaw) (hm : s.mode = .run) (p : Port) (hr : (s.entry p).role = .isolating)
    (hn : ∀ q, (s.entry q).insertionTarget ≠ some p) : (s.assignSpare p).CellLaw := by
  simp only [State.assignSpare]
  split
  · rename_i q hb
    have hq : s.eligible q = true ∧ phaseOf q = phaseOf p := by
      have := List.mem_of_mem_head? (by simpa [bestSpare?] using hb)
      simp only [sortPorts, List.mem_insertionSort, List.mem_filter, phasePorts] at this
      exact ⟨this.2, by simpa using this.1.2⟩
    have hs : (s.entry q).role = .spare ∧ (s.entry q).insertionTarget = none := by
      have := hq.1
      simp [eligible] at this
      tauto
    obtain ⟨⟨h1, h2, h3⟩, h4, h5⟩ := h
    have he := updEntry_entry s q (fun e => { e with insertionTarget := some p })
    have hro : ∀ a, ((s.updEntry q (fun e => { e with insertionTarget := some p })).entry a).role = (s.entry a).role := by
      intro a; rw [he]; split
      · subst_vars; rfl
      · rfl
    refine ⟨⟨?_, ?_, ?_⟩, ?_, ?_⟩
    · intro a
      rw [he]
      split
      · have l := h1 q
        exact ⟨l.position, l.installed, fun _ => hs.1, l.deferred⟩
      · exact h1 a
    · intro a b hb
      rw [hro]
      rw [he] at hb
      split at hb
      · subst_vars
        simp only [Option.some.injEq] at hb
        subst hb
        exact ⟨hr, hq.2.symm⟩
      · exact h2 a b hb
    · intro a b c ha hb
      rw [he] at ha hb
      split at ha
      · split at hb
        · subst_vars; rfl
        · simp only [Option.some.injEq] at ha
          subst ha
          exact absurd hb (hn b)
      · split at hb
        · simp only [Option.some.injEq] at hb
          subst hb
          exact absurd ha (hn a)
        · exact h3 a b c ha hb
    · intro hne; exact absurd (by simpa using hm) hne
    · simpa using h5
  · exact h

/-- Serving one cell gives no spare to another, and changes no role. -/
theorem assignSpare_entry (s : State) (p q : Port) :
    ((s.assignSpare p).entry q).role = (s.entry q).role ∧
    (((s.assignSpare p).entry q).insertionTarget = (s.entry q).insertionTarget ∨
      ((s.assignSpare p).entry q).insertionTarget = some p) := by
  simp only [State.assignSpare]
  split
  · rw [updEntry_entry]
    split
    · subst_vars; simp
    · simp
  · simp

theorem CellLaw.foldl_assignSpare (h : s.CellLaw) (hm : s.mode = .run) (l : List Port) (hd : l.Nodup)
    (hl : ∀ p ∈ l, (s.entry p).role = .isolating ∧ ∀ q, (s.entry q).insertionTarget ≠ some p) :
    (l.foldl State.assignSpare s).CellLaw := by
  induction l generalizing s with
  | nil => exact h
  | cons p l ih =>
    rw [List.nodup_cons] at hd
    have hp := hl p (by simp)
    refine ih (h.assignSpare hm p hp.1 hp.2) (by simpa using hm) hd.2 ?_
    intro a ha
    have hla := hl a (by simp [ha])
    refine ⟨by rw [(assignSpare_entry s p a).1]; exact hla.1, fun q hq => ?_⟩
    rcases (assignSpare_entry s p q).2 with h' | h'
    · exact hla.2 q (h' ▸ hq)
    · rw [h'] at hq
      cases hq
      exact hd.1 ha

theorem unserved_mem {x : Phase} {p : Port} (hp : p ∈ s.unserved x) :
    phaseOf p = x ∧ (s.entry p).role = .isolating ∧ ∀ q, (s.entry q).role = .spare → (s.entry q).insertionTarget ≠ some p := by
  simp only [unserved, phaseString, sortPorts, phasePorts, List.mem_filter, List.mem_insertionSort, spareFor?,
    decide_eq_true_eq, Option.isNone_iff_eq_none, List.find?_eq_none] at hp
  refine ⟨hp.1.1.2, hp.2.1, fun q hs ht => ?_⟩
  exact hp.2.2 q (by simp [allPorts]) ⟨hs, ht⟩

theorem CellLaw.selectSpares (h : s.CellLaw) : s.selectSpares.CellLaw := by
  simp only [State.selectSpares]
  split
  · rename_i hc
    have hm : s.mode = .run := by
      simp only [spareAllowed, Bool.and_eq_true, beq_iff_eq] at hc
      exact hc.1
    refine h.foldl_assignSpare hm _ ?_ ?_
    · rw [List.nodup_flatMap]
      refine ⟨fun x _ => ?_, ?_⟩
      · simp only [unserved, phaseString, sortPorts]
        refine List.Nodup.filter _ ?_
        rw [(List.perm_insertionSort _ _).nodup_iff]
        exact ((List.nodup_finRange 24).filter _).filter _
      · have hx : ∀ x y : Phase, x ≠ y → List.Disjoint (s.unserved x) (s.unserved y) := by
          intro x y hxy p h1 h2
          exact hxy ((unserved_mem h1).1.symm.trans (unserved_mem h2).1)
        simp only [Phase.list, List.pairwise_cons, List.mem_cons, List.not_mem_nil, or_false, forall_eq_or_imp,
          forall_eq, IsEmpty.forall_iff, implies_true, List.Pairwise.nil, and_true]
        exact ⟨⟨hx _ _ (by decide), hx _ _ (by decide)⟩, hx _ _ (by decide)⟩
    · intro p hp
      obtain ⟨x, _, hx⟩ := List.mem_flatMap.1 hp
      have hu := unserved_mem hx
      refine ⟨hu.2.1, fun q hq => hu.2.2 q ?_ hq⟩
      exact (h.1.entries q).target (by simp [hq])
  · exact h

theorem CellLaw.reselect (h : s.CellLaw) : s.reselect.CellLaw := by
  simp only [State.reselect]
  split <;> first | exact h.selectSpares | exact h

/-! ### Roles -/

theorem CellLaw.makeIsolating (h : s.CellLaw) (hm : s.mode = .run) (p : Port) (hr : (s.entry p).role = .active) :
    (s.makeIsolating p).CellLaw := by
  have l := h.1.entries p
  have ht : (s.entry p).insertionTarget = none := by
    by_contra hc
    have := l.target (by simpa [Option.isSome_iff_ne_none] using hc)
    simp [hr] at this
  refine CellLaw.congr (s := s.updEntry p (fun e => { e with role := .isolating, deferred := false })) ?_ rfl rfl rfl
  refine h.settle p _ ?_ (by simpa using ht) (fun _ => rfl) (fun hc => absurd hm hc)
  have h1 := l.position
  have h2 := l.installed
  exact ⟨by simpa [RosterEntry.inString, hr] using h1, by rw [hr] at h2; exact h2, by simp [ht], by simp⟩

/-- Making a cell ISOLATING changes no other entry. -/
theorem makeIsolating_entry (s : State) (p q : Port) (h : p ≠ q) : (s.makeIsolating p).entry q = s.entry q := by
  simp [State.makeIsolating, h]

theorem CellLaw.retireSpare (h : s.CellLaw) (p : Port) (hr : (s.entry p).role = .spare) :
    (s.retireSpare p).CellLaw := by
  have l := h.1.entries p
  have h1 := l.position
  have h2 := l.installed
  have hd : (s.entry p).deferred = false := by
    by_contra hc
    have := l.deferred (by simpa using hc)
    simp [hr] at this
  have ht : (s.updEntry p (fun e => { e with role := .bypassed, insertionTarget := none })).CellLaw := by
    refine h.settle p _ ?_ rfl (fun hc => by simp [hr] at hc) (fun _ => by simp [hd])
    exact ⟨by simpa [RosterEntry.inString, hr] using h1, by rw [hr] at h2; exact h2, by simp, by simp [hd]⟩
  simp only [State.retireSpare]
  split
  · exact ht.reselect
  · exact ht

theorem CellLaw.deselect (h : s.CellLaw) (p : Port) : (s.deselect p).CellLaw := by
  have l := h.1.entries p
  refine h.settle p _ ⟨l.position, l.installed, by simp, l.deferred⟩ rfl (fun hc => hc) (fun hm => h.2.quiet hm p)

/-! ### Renumbering, rebuild and compaction -/

theorem renumbered_same (s : State) (p : Port) (e : RosterEntry) (hl : e.Law) : SameCell e (s.renumbered p e) := by
  simp only [renumbered]
  split
  · exact ⟨rfl, rfl, by simp [hl.position, *], rfl, rfl⟩
  · exact .refl _

theorem CellLaw.renumber (h : s.CellLaw) : s.renumber.CellLaw :=
  h.same (fun p => by rw [State.renumber, mapEntries_entry]; exact renumbered_same _ _ _ (h.1.entries p)) (by simp)
    (by simp)

theorem CellLaw.renumberPhase (h : s.CellLaw) (x : Phase) : (s.renumberPhase x).CellLaw := by
  refine h.same (fun p => ?_) (by simp) (by simp)
  rw [State.renumberPhase, mapEntries_entry]
  split
  · exact renumbered_same _ _ _ (h.1.entries p)
  · exact .refl _

/-- A roster without targets whose entries obey their law, and where the mode asks for it are quiet. -/
theorem CellLaw.mapEntries (h : s.CellLaw) (f : Port → RosterEntry → RosterEntry)
    (hl : ∀ p, (f p (s.entry p)).Law ∧ (f p (s.entry p)).insertionTarget = none)
    (hq : s.mode ≠ .run → ∀ p, (f p (s.entry p)).role ≠ .isolating ∧ (f p (s.entry p)).deferred = false) :
    (s.mapEntries f).CellLaw := by
  refine ⟨⟨fun p => ?_, fun p q hc => ?_, fun p p' q hc => ?_⟩, fun hm p => ?_, ?_⟩
  · rw [mapEntries_entry]; exact (hl p).1
  · rw [mapEntries_entry, (hl p).2] at hc; cases hc
  · rw [mapEntries_entry, (hl p).2] at hc; cases hc
  · rw [mapEntries_entry]; exact hq (by simpa using hm) p
  · simpa using h.2.warm

theorem rebuiltEntry_law (h : s.CellLaw) (p : Port) :
    (s.rebuiltEntry p (s.entry p)).Law ∧ (s.rebuiltEntry p (s.entry p)).insertionTarget = none ∧
      (s.rebuiltEntry p (s.entry p)).role ≠ .isolating := by
  have l := h.1.entries p
  obtain ⟨h1, h2, h3, h4⟩ := l
  simp only [rebuiltEntry]
  split
  · rename_i hr
    have hd : (s.entry p).deferred = false := by
      by_contra hc
      have := h4 (by simpa using hc)
      simp [hr] at this
    have ht : (s.entry p).insertionTarget = none := by
      by_contra hc
      have := h3 (by simpa [Option.isSome_iff_ne_none] using hc)
      simp [hr] at this
    exact ⟨⟨by simp [RosterEntry.inString], by rw [hr] at h2; exact h2, by simp [ht], by simp [hd]⟩, ht, by simp⟩
  · rename_i q hr hq
    have hd : (s.entry p).deferred = false := by
      by_contra hc
      have := h4 (by simpa using hc)
      simp [hr] at this
    split
    · rename_i hc
      simp only [Bool.and_eq_true, beq_iff_eq] at hc
      have hp := (h.1.entries q).position
      simp only [RosterEntry.inString, hc.2] at hp
      exact ⟨⟨by simpa [RosterEntry.inString] using hp, by rw [hr] at h2; exact h2, by simp, by simp⟩, rfl, by simp⟩
    · exact ⟨⟨by simpa [RosterEntry.inString] using h1, h2, by simp, by simp [hd]⟩, rfl, by simp [hr]⟩
  · rename_i hn hr
    have ht : (s.entry p).insertionTarget = none := by
      by_contra hc
      obtain ⟨q, hq⟩ := Option.ne_none_iff_exists'.1 hc
      exact hr q (h3 (by simp [hq])) hq
    refine ⟨⟨h1, h2, h3, h4⟩, ht, fun hc => hn hc⟩

theorem CellLaw.rebuild (h : s.CellLaw) : s.rebuild.CellLaw := by
  have hm : (s.mapEntries s.rebuiltEntry).CellLaw := by
    refine h.mapEntries _ (fun p => ⟨(rebuiltEntry_law h p).1, (rebuiltEntry_law h p).2.1⟩) (fun hm p => ?_)
    refine ⟨(rebuiltEntry_law h p).2.2, ?_⟩
    have := (h.2.quiet hm p).2
    simp only [rebuiltEntry]
    repeat' split
    all_goals exact this
  exact hm.renumber.congr (by simp [State.rebuild]) (by simp [State.rebuild]) (by simp [State.rebuild])

theorem compactedEntry_law (h : s.RosterLaw) (p : Port) :
    (s.compactedEntry p (s.entry p)).Law ∧ (s.compactedEntry p (s.entry p)).insertionTarget = none ∧
      (s.compactedEntry p (s.entry p)).role ≠ .isolating ∧ (s.compactedEntry p (s.entry p)).deferred = false := by
  obtain ⟨h1, h2, h3, h4⟩ := h.entries p
  have hd : (s.entry p).role ≠ .active → (s.entry p).deferred = false := by
    intro hn
    by_contra hc
    exact hn (h4 (by simpa using hc))
  have ht : (s.entry p).role ≠ .spare → (s.entry p).insertionTarget = none := by
    intro hn
    by_contra hc
    exact hn (h3 (by simpa [Option.isSome_iff_ne_none] using hc))
  simp only [compactedEntry]
  split
  · rename_i hr
    have ht := ht (by simp [hr])
    split
    · exact ⟨⟨by simp [RosterEntry.inString], by rw [hr] at h2; exact h2, by simp [ht], by simp⟩, ht, by simp, rfl⟩
    · exact ⟨⟨h1, h2, h3, h4⟩, ht, by simp [hr], by simp_all⟩
  · rename_i hr
    have ht := ht (by simp [hr])
    have hd := hd (by simp [hr])
    refine ⟨⟨?_, ?_, by simp [ht], by simp [hd]⟩, ht, ?_, hd⟩
    · cases s.closureOk p <;> simp [RosterEntry.inString]
    · rw [hr] at h2; cases s.closureOk p <;> exact h2
    · cases s.closureOk p <;> simp
  · rename_i hr
    have hd := hd (by simp [hr])
    exact ⟨⟨h1, h2, by simp, h4⟩, rfl, by simp [hr], hd⟩
  all_goals
    rename_i hr
    exact ⟨⟨h1, h2, h3, h4⟩, ht (by simp [hr]), by simp [hr], hd (by simp [hr])⟩

/-- Compaction leaves the roster in order and quiet, whatever the mode becomes (R18). -/
theorem departRun_cellLaw (h : s.RosterLaw) (m : Mode) (hm : m ≠ .run) : (s.departRun m).CellLaw := by
  have he : ∀ p, (s.urgentBlock.mapEntries s.urgentBlock.compactedEntry).entry p = s.compactedEntry p (s.entry p) := by
    have hE : ∀ q, s.urgentBlock.entry q = s.entry q := fun q => by simp [State.entry]
    intro p
    rw [mapEntries_entry, hE]
    have hc : s.urgentBlock.closureOk p = s.closureOk p := by
      simp only [closureOk, closureConfirmed, queued, hE, urgentBlock_frame]
    simp only [compactedEntry, hc]
  have hq : ((s.urgentBlock.mapEntries s.urgentBlock.compactedEntry).setMode m).CellLaw := by
    refine ⟨⟨fun p => ?_, fun p q hc => ?_, fun p p' q hc => ?_⟩, fun _ p => ?_, fun hc => absurd hc hm⟩
    all_goals simp only [setMode_entry, he] at *
    · exact (compactedEntry_law h p).1
    · rw [(compactedEntry_law h p).2.1] at hc; cases hc
    · rw [(compactedEntry_law h p).2.1] at hc; cases hc
    · exact (compactedEntry_law h p).2.2
  refine hq.same (fun p => ?_) (by simp [State.departRun]) (by simp)
  have hd : (s.departRun m).entry p =
      ((s.urgentBlock.mapEntries s.urgentBlock.compactedEntry).renumber).entry p := by
    simp [State.departRun, State.entry, compact]
  rw [hd, State.renumber, mapEntries_entry, setMode_entry]
  refine renumbered_same _ _ _ ?_
  rw [he]
  exact (compactedEntry_law h p).1

theorem CellLaw.requestTrip (h : s.CellLaw) (r : TripRequest) : (s.requestTrip r).CellLaw := by
  simp only [State.requestTrip]
  split
  · exact departRun_cellLaw (h.congr (by simp) (by simp) (by simp) : CellLaw _).1 _ (by decide)
  · exact h

end State

end Sys2Proof.Machine
end

