-- ==== Sys2Proof/Laws/RosterSteps.lean ====
section
/-! SUPPORT. The laws of the roster across latches, the steps of a period start and the commands that write roles. -/

namespace Sys2Proof.Machine.State

variable {s t : State}

theorem CellLaw.deferLatch (h : s.CellLaw) (hm : s.mode = .run) (p : Port) (hr : (s.entry p).role = .active) :
    (s.deferLatch p).CellLaw := by
  have l := h.1.entries p
  have ht : (s.entry p).insertionTarget = none := by
    by_contra hc
    have := l.target (by simpa [Option.isSome_iff_ne_none] using hc)
    simp [hr] at this
  exact h.settle p _ ⟨l.position, l.installed, l.target, fun _ => hr⟩ ht (fun hc => hc) (fun hc => absurd hm hc)

theorem CellLaw.latchEffect (h : s.CellLaw) (hm : s.mode = .run) (p : Port) : (s.latchEffect p).1.CellLaw := by
  have iso : (s.entry p).role = .active → (s.makeIsolating p).CellLaw := h.makeIsolating hm p
  simp only [State.latchEffect, latchActive, openEpisode, joinRecovery, pushBack]
  repeat' split
  all_goals first
    | with_reducible exact h
    | with_reducible exact iso ‹_›
    | with_reducible exact h.deferLatch hm p ‹_›
    | with_reducible exact h.retireSpare p ‹_›
    | with_reducible exact CellLaw.selectSpares ((iso ‹_›).congr (by simp) (by simp) (by simp))
    | with_reducible exact (iso ‹_›).congr (by simp) (by simp) (by simp)

theorem CellLaw.countLatch (h : s.CellLaw) (l : Latch) (m : Mode) (st : Stage) (d : Nat) :
    (s.countLatch l m st d).CellLaw :=
  (h.updEntry l.port (fun e => { e with latchCount := saturate 255 e.latchCount }) ⟨rfl, rfl, rfl, rfl, rfl⟩).congr
    (by simp [State.countLatch]) (by simp) (by simp)

theorem CellLaw.acceptLatch (h : s.CellLaw) (hm : s.mode = .run) (l : Latch) : (s.acceptLatch l).CellLaw := by
  have he := (h.latchEffect hm l.port).countLatch l .run s.rsq.stage (s.latchEffect l.port).1.nestDepth
  simp only [State.acceptLatch]
  split
  · exact h
  · split
    · exact he.requestTrip _
    · exact he

theorem CellLaw.latchOutsideRun (h : s.CellLaw) (hm : s.mode ≠ .run) (l : Latch) : (s.latchOutsideRun l).CellLaw := by
  have e := h.1.entries l.port
  have hd := (h.2.quiet hm l.port).2
  simp only [State.latchOutsideRun]
  split
  · rename_i hr
    have ht : (s.entry l.port).insertionTarget = none := by
      by_contra hc
      have := e.target (by simpa [Option.isSome_iff_ne_none] using hc)
      simp [hr] at this
    have hi := e.installed
    rw [hr] at hi
    refine CellLaw.countLatch (CellLaw.renumberPhase (h.settle _ _ ?_ ht (fun hc => ?_) (fun _ => ?_)) _) _ _ _ _
    · exact ⟨by simp [RosterEntry.inString], hi, by simp [ht], by simp [hd]⟩
    · simp [hr] at hc
    · simp [hd]
  · rename_i hr
    have hi := e.installed
    have hp := e.position
    rw [hr] at hi
    refine CellLaw.countLatch (CellLaw.renumberPhase (h.settle _ _ ?_ rfl (fun hc => ?_) (fun _ => ?_)) _) _ _ _ _
    · exact ⟨by simpa [RosterEntry.inString, hr] using hp, hi, by simp, by simp [hd]⟩
    · simp [hr] at hc
    · simp [hd]
  all_goals exact h

theorem CellLaw.takeLatch (h : s.CellLaw) (l : Latch) : (s.takeLatch l).CellLaw := by
  simp only [State.takeLatch]
  split
  · exact h.acceptLatch ‹_› l
  · exact h.latchOutsideRun ‹_› l

theorem CellLaw.handLatch (h : s.CellLaw) (l : Latch) (late : Bool) : (s.handLatch l late).CellLaw := by
  simp only [State.handLatch]
  split
  · exact h.congr (by simp) (by simp) (by simp)
  · exact h.takeLatch l

/-- An entry that loses its target and keeps what else the laws read. -/
theorem CellLaw.untarget (h : s.CellLaw) (p : Port) (f : RosterEntry → RosterEntry)
    (hf : ∀ e, (f e).insertionTarget = none ∧ (f e).role = e.role ∧ (f e).installed = e.installed ∧
      (f e).position = e.position ∧ (f e).deferred = e.deferred) : (s.updEntry p f).CellLaw := by
  obtain ⟨h1, h2, h3, h4, h5⟩ := hf (s.entry p)
  have e := h.1.entries p
  refine h.settle p f ⟨?_, ?_, by simp [h1], ?_⟩ h1 (fun hc => h2 ▸ hc) (fun hm => ?_)
  · rw [h4, e.position]; simp [RosterEntry.inString, h2]
  · rw [h3, h2]; exact e.installed
  · rw [h5, h2]; exact e.deferred
  · rw [h2, h5]; exact h.2.quiet hm p

theorem CellLaw.closeFailed (h : s.CellLaw) (p : Port) : (s.closeFailed p).CellLaw := by
  have hr : (s.raise .bypassFail).CellLaw := h.congr (by simp) (by simp) (by simp)
  simp only [State.closeFailed]
  split
  · exact hr.requestTrip _
  · exact hr

theorem CellLaw.openFailed (h : s.CellLaw) (p : Port) : (s.openFailed p).CellLaw := by
  have hr : (s.raise .bypassFail).CellLaw := h.congr (by simp) (by simp) (by simp)
  have hu : ((s.updEntry p (fun e => { e with insertionTarget := none, ineligible := e.ineligible ||
      (s.link p).state != .lost }))).CellLaw := h.untarget p _ (fun _ => ⟨rfl, rfl, rfl, rfl, rfl⟩)
  have hw : ∀ l, (((s.updEntry p (fun e => { e with insertionTarget := none, ineligible := e.ineligible ||
      (s.link p).state != .lost })).raise .spareOpenFail).writeLog l).CellLaw := fun l =>
    hu.congr (by simp) (by simp) (by simp)
  simp only [State.openFailed]
  repeat' split
  · exact (hw (s.entryNow .spareOpenFail (some p))).congr (by simp) (by simp) (by simp)
  · exact hr.congr (by simp) (by simp) (by simp)
  · exact hr

theorem CellLaw.failStep (h : s.CellLaw) : s.failStep.CellLaw := by
  have hk : ∀ a, (s.setRetry a true).CellLaw := fun a => h.congr (by simp) (by simp) (by simp)
  have hd : ∀ a, (s.setRetry a true).dropHead.CellLaw := fun a => h.congr (by simp) (by simp) (by simp)
  simp only [State.failStep]
  split
  · split
    · split
      · rename_i a _ _ _ _
        exact ((hk a.port).closeFailed a.port).congr (by simp) (by simp) (by simp)
      · exact (hd _).openFailed _
    · exact h
  · exact h

theorem CellLaw.selectStep (h : s.CellLaw) : s.selectStep.CellLaw := by
  have hk : ∀ f, (s.updPs f).CellLaw := fun f => h.congr rfl rfl rfl
  simp only [State.selectStep]
  split
  · exact (hk _).reselect
  · exact h

theorem CellLaw.deemStep (h : s.CellLaw) : s.deemStep.CellLaw := by
  have one : ∀ (u : State) (p : Port), u.CellLaw → (u.deemClosed p).CellLaw := by
    intro u p hu
    have hk := hu.updEntry p (fun e => { e with blind := true, bypassOrder := .closed }) ⟨rfl, rfl, rfl, rfl, rfl⟩
    simp only [deemClosed]
    split
    · exact hk.congr (by simp) (by simp) (by simp)
    · exact hk
  have fold : ∀ (l : List Port) (u : State), u.CellLaw → (l.foldl deemClosed u).CellLaw := by
    intro l
    induction l with
    | nil => exact fun u hu => hu
    | cons p l ih => exact fun u hu => ih _ (one u p hu)
  exact fold _ _ h

theorem CellLaw.issueStep (h : s.CellLaw) : s.issueStep.CellLaw := by
  simp only [State.issueStep]
  split
  · refine CellLaw.updEntry ?_ _ _ ⟨rfl, rfl, rfl, rfl, rfl⟩
    exact h.congr rfl rfl rfl
  · exact h

theorem CellLaw.holdStep (h : s.CellLaw) : s.holdStep.CellLaw := by
  have hk : (s.updCli (fun c => { c with holdCount := s.holdAfter })).CellLaw := h.congr rfl rfl rfl
  simp only [State.holdStep]
  split
  · exact hk.requestTrip _
  · exact hk

theorem CellLaw.windowStep (h : s.CellLaw) : s.windowStep.CellLaw := by
  have one : ∀ (u : State) (p : Port), u.CellLaw → (u.failAlign p).CellLaw := by
    intro u p hu
    simp only [failAlign]
    split
    · exact hu.acceptLatch ‹_› _
    · exact hu
  have fold : ∀ (l : List Port) (u : State), u.CellLaw → (l.foldl failAlign u).CellLaw := by
    intro l
    induction l with
    | nil => exact fun u hu => hu
    | cons p l ih => exact fun u hu => ih _ (one u p hu)
  simp only [State.windowStep]
  refine fold _ _ ?_
  split
  · exact h
  · exact h.congr rfl rfl rfl

theorem CellLaw.leakStep (h : s.CellLaw) : s.leakStep.CellLaw := by
  simp only [State.leakStep]
  split
  · exact h.same (fun p => by rw [mapEntries_entry]; exact ⟨rfl, rfl, rfl, rfl, rfl⟩) (by simp) (by simp)
  · exact h.congr rfl rfl rfl

theorem CellLaw.judgePort (h : s.CellLaw) (p : Port) : (s.judgePort p).CellLaw := by
  have ht : ((s.countPort p).updPs (fun q => { q with judged := p :: q.judged })).CellLaw :=
    h.congr (by simp) (by simp) (by simp)
  have hc : ∀ u : State, u.CellLaw →
      (((((u.updLink p (Link.toLost p)).raise .linkLost).updEntry p (fun e => { e with contact := .unknown })).dropWaiting
        p)).CellLaw := by
    intro u hu
    have hl : (u.updLink p (Link.toLost p)).CellLaw := hu.congr rfl rfl rfl
    have he := hl.updEntry p (fun e => { e with contact := .unknown }) ⟨rfl, rfl, rfl, rfl, rfl⟩
    exact he.congr (by simp) (by simp) (by simp)
  simp only [State.judgePort]
  split
  · simp only [enterLost, loseCell, loseIsolating]
    have hd := hc _ ht
    repeat' split
    all_goals first
      | with_reducible exact hd
      | with_reducible exact hd.requestTrip _
      | with_reducible exact hd.takeLatch _
      | with_reducible exact (hd.deselect p).reselect
  · exact ht

theorem CellLaw.linksStep (h : s.CellLaw) : s.linksStep.CellLaw := by
  have fold : ∀ (l : List Port) (u : State), u.CellLaw → (l.foldl State.judgePort u).CellLaw := by
    intro l
    induction l with
    | nil => exact fun u hu => hu
    | cons p l ih => exact fun u hu => ih _ (hu.judgePort p)
  exact fold _ _ h

theorem CellLaw.acceptDeferred (h : s.CellLaw) (hm : s.mode = .run) : (s.acceptDeferred s.deferredCells).CellLaw := by
  have fold : ∀ (l : List Port) (u : State), u.CellLaw → u.mode = .run → l.Nodup →
      (∀ p ∈ l, (u.entry p).role = .active) → (l.foldl State.makeIsolating u).CellLaw := by
    intro l
    induction l with
    | nil => exact fun u hu _ _ _ => hu
    | cons p l ih =>
      intro u hu hum hd hl
      rw [List.nodup_cons] at hd
      refine ih _ (hu.makeIsolating hum p (hl p (by simp))) (by simpa using hum) hd.2 ?_
      intro q hq
      rw [makeIsolating_entry _ _ _ (fun hpq : p = q => hd.1 (hpq ▸ hq))]
      exact hl q (by simp [hq])
  have hi := fold s.deferredCells s h hm ((List.nodup_finRange 24).filter _) (by
    intro p hp
    have := (List.mem_filter.1 hp).2
    simp only [decide_eq_true_eq] at this
    exact this.1)
  simp only [State.acceptDeferred]
  repeat' split
  · exact hi.requestTrip _
  · exact hi.requestTrip _
  · exact hi.congr (by simp) (by simp) (by simp)

theorem CellLaw.sequencerStep (h : s.CellLaw) : s.sequencerStep.CellLaw := by
  have hg : s.gapStep.CellLaw := h.congr (by simp) (by simp) (by simp)
  have hb : s.gapStep.rebuild.applyRecovery.CellLaw :=
    hg.rebuild.congr (by simp) (by simp) (by simp [State.applyRecovery])
  have he : ∀ u : State, u.CellLaw → u.enterIsolate.CellLaw :=
    fun u hu => CellLaw.selectSpares (hu.congr rfl rfl rfl)
  simp only [State.sequencerStep, stageProgress, remapCompletion, inhibitProgress]
  repeat' split
  all_goals first
    | with_reducible exact h
    | with_reducible exact hg
    | with_reducible exact hg.requestTrip _
    | with_reducible exact hb.requestTrip _
    | with_reducible exact he _ (hg.congr rfl rfl rfl)
    | with_reducible exact hb.acceptDeferred (by simpa using ‹s.mode = .run›)
    | (with_reducible refine hg.congr ?_ ?_ ?_) <;> simp <;> done
    | (with_reducible refine hb.congr ?_ ?_ ?_) <;> simp

/-- The same roster under another mode. -/
theorem CellLaw.remode (h : s.CellLaw) (hr : t.roster = s.roster) (hm : t.mode ≠ .run → s.mode ≠ .run)
    (hw : t.mode = .run → t.mga.warmPending = false) : t.CellLaw := by
  have he : ∀ p, t.entry p = s.entry p := fun p => by simp only [entry, hr]
  refine ⟨⟨fun p => ?_, fun p q hq => ?_, fun p p' q hq hq' => ?_⟩, fun hc p => ?_, hw⟩
  · rw [he]; exact h.1.entries p
  · rw [he] at *; exact h.1.targets p q hq
  · rw [he] at hq hq'; exact h.1.distinct p p' q hq hq'
  · rw [he]; exact h.2.quiet (hm hc) p

/-- A change between two modes other than RUN. -/
theorem CellLaw.setMode (h : s.CellLaw) (m : Mode) (hs : s.mode ≠ .run) (hm : m ≠ .run) : (s.setMode m).CellLaw :=
  h.remode (by simp) (fun _ => hs) (fun hc => absurd hc (by simpa using hm))

theorem CellLaw.warmReset (h : s.CellLaw) (hp : s.mga.warmPending = true) : s.warmReset.CellLaw := by
  have hm : s.mode ≠ .run := fun hc => by simp [h.2.warm hc] at hp
  have hn : s.modeByLine ≠ .run := by simp only [modeByLine]; split <;> simp
  have hw : s.warmMode.CellLaw ∧ s.warmMode.mode ≠ .run := by
    simp only [warmMode]
    split
    · refine ⟨CellLaw.setMode (CellLaw.renumber (CellLaw.congr h (by simp) (by simp) (by simp))) _ ?_ (by simp), by simp⟩
      simpa using hm
    · exact ⟨h.setMode _ hm hn, by simpa using hn⟩
  have hk : ∀ g : Port → Link → Link, (s.warmMode.mapLinks g).CellLaw := fun g =>
    hw.1.congr (by simp) (by simp) (by simp)
  have he : ((s.warmMode.mapLinks (fun p l => warmLink p (s.warmMode.entry p) l)).mapEntries
      (fun _ e => warmEntry e)).CellLaw := by
    refine (hk _).mapEntries _ (fun p => ?_) (fun _ p => ?_)
    · have l := (hk (fun p l => warmLink p (s.warmMode.entry p) l)).1.entries p
      exact ⟨⟨l.position, l.installed, by simp [warmEntry], by simp [warmEntry]⟩, rfl⟩
    · rw [mapLinks_entry]
      exact ⟨(hw.1.2.quiet hw.2 p).1, rfl⟩
  have hmo : s.warmReset.mode = s.warmMode.mode := by simp [State.warmReset]
  refine he.remode (by simp [State.warmReset]) (fun _ => by simpa using hw.2) (fun hc => absurd ?_ hw.2)
  rw [← hmo]; exact hc

/-- Every block's step of a period start keeps the laws of the roster. -/
theorem cellLaw_periodKept : PeriodKept CellLaw where
  record _ _ h := h.congr rfl rfl rfl
  run s x h := by
    cases x
    case hold => exact h.holdStep
    case fail => exact h.failStep
    case select => exact h.selectStep
    case deem => exact h.deemStep
    case sequencer => exact h.sequencerStep
    case links => exact h.linksStep
    case window => exact h.windowStep
    case leak => exact h.leakStep
    case issue => exact h.issueStep
    case commit => exact h.congr (by simp [runStep]) (by simp [runStep]) (by
      simp only [runStep, commitStep]; split <;> simp)
    all_goals exact h.congr (by simp [runStep]) (by simp [runStep]) (by simp [runStep])
  opening _ h := h.congr (by simp) (by simp) (by simp)
  replies _ h := replyEnds_keeps h h.warmReset (fun _ => h.congr (by simp) (by simp) (by simp [sendReply]))
  supply _ _ h := h.congr rfl rfl rfl
  judge _ p h := h.judgePort p
  latch _ l h := h.takeLatch l
  handed _ _ h := h.congr (by simp) (by simp) (by simp)

/-! ### Arrivals, services and resets -/

theorem CellLaw.receiveSts (h : s.CellLaw) (p : Port) (bytes : List Byte) (late : Bool) :
    (s.receiveSts p bytes late).CellLaw := by
  have hl : (s.updLink p Link.accept).CellLaw := h.congr rfl rfl rfl
  have hr : ∀ f, ((s.updLink p Link.accept).recordStatus p f).CellLaw := fun f =>
    hl.updEntry p _ ⟨rfl, rfl, rfl, rfl, rfl⟩
  have confirm : ∀ {c : Contact} (v : State), v.CellLaw →
      (if (v.entry p).role = .failed ∧ c = .closed then v.updEntry p (fun e => { e with role := .bypassed })
        else v).CellLaw := by
    intro c v hvl
    split
    · rename_i hf
      have e := hvl.1.entries p
      have ht : (v.entry p).insertionTarget = none := by
        by_contra hcc
        have := e.target (by simpa [Option.isSome_iff_ne_none] using hcc)
        simp [hf.1] at this
      have hd : (v.entry p).deferred = false := by
        by_contra hcc
        have := e.deferred (by simpa using hcc)
        simp [hf.1] at this
      have hp := e.position
      have hi := e.installed
      rw [hf.1] at hi
      refine hvl.settle p _ ⟨?_, hi, by simp [ht], by simp [hd]⟩ ht (fun hcc => ?_) (fun _ => by simp [hd])
      · simpa [RosterEntry.inString, hf.1] using hp
      · simp [hf.1] at hcc
    · exact hvl
  have hc : ∀ (u : State) c, u.CellLaw → (u.confirmContact p c).CellLaw := by
    intro u c hu
    simp only [confirmContact]
    refine confirm _ ?_
    split
    · exact hu.congr (by simp) (by simp) (by simp)
    · exact hu
  have hn : ∀ (u : State) (w : Half), u.CellLaw → (u.screenWord p w late).CellLaw := by
    intro u w hu
    have hk : ∀ i, (u.countHit i).CellLaw := fun i => hu.congr (by simp) (by simp) (by simp)
    have hf : ∀ (i : Fin 16) (f : Flag), ((u.countHit i).raise f).CellLaw := fun i _ => (hk i).congr rfl rfl rfl
    have hb : ∀ (i : Fin 16) (n : Nat),
        (((u.countHit i).raise .clip).updEntry p (fun e => { e with clipBucket := n })).CellLaw := fun i n =>
      (hf i .clip).updEntry p _ ⟨rfl, rfl, rfl, rfl, rfl⟩
    have hw : ∀ i : Fin 16, ((u.countHit i).noteWord p).CellLaw := fun i =>
      ((hk i).updEntry p (fun e => { e with noteCount := saturate 65535 e.noteCount })
        ⟨rfl, rfl, rfl, rfl, rfl⟩).congr (by simp [State.noteWord]) (by simp) (by simp)
    have hz : ∀ (i : Fin 16) (n : Nat), ((((u.countHit i).raise .clip).updEntry p
        (fun e => { e with clipBucket := n })).urgentZero p).CellLaw := fun i n =>
      (hb i n).congr (by simp) (by simp) (by simp)
    have hl : ∀ (i : Fin 16) (e : LogEntry), (((u.countHit i).raise .tripCause).writeLog e).CellLaw := fun i e =>
      (hf i .tripCause).congr (by simp) (by simp) (by simp)
    simp only [screenWord]
    split
    · split
      · simp only [applyAction, clipWord, tripWord]
        repeat' split
        all_goals first
          | with_reducible exact hk _
          | with_reducible exact hw _
          | with_reducible exact (hk _).handLatch _ _
          | with_reducible exact (hb _ _).handLatch _ _
          | with_reducible exact (hf _ _).requestTrip _
          | with_reducible exact hb _ _
          | with_reducible exact hz _ _
          | with_reducible exact hl _ _
      · exact hu
    · exact hu
  simp only [State.receiveSts]
  split
  case h_5 f _ => exact hn _ _ ((hc _ (contactOf f.contactCode) (hr f)).congr (by simp) (by simp) (by simp))
  all_goals exact h.congr rfl rfl rfl

/-- A roster write whose entries are valid, in a mode without ISOLATING cells, obeys the laws (R19). -/
theorem CellLaw.writeRoster (h : s.CellLaw) (hm : s.mode ≠ .run) (f : MgtFrame)
    (hw : ∀ p w, rosterWriteFor f p = some w → rosterWriteOk w = true) : (s.writeRoster f).CellLaw := by
  have ht : ∀ p, (s.entry p).insertionTarget = none := by
    intro p
    by_contra hc
    obtain ⟨q, hq⟩ := Option.ne_none_iff_exists'.1 hc
    exact (h.2.quiet hm q).1 (h.1.targets p q hq).1
  have hk : ∀ g : Port → Link → Link, (s.mapLinks g).CellLaw := fun g => h.congr (by simp) (by simp) (by simp)
  simp only [State.writeRoster]
  refine CellLaw.mapEntries (hk _) _ (fun p => ?_) (fun _ p => ?_)
  all_goals
    simp only [mapLinks_entry]
    split
    · rename_i w hs
      have hv := hw p w hs
      rcases w with ⟨wi, _ | wr, wp, wk, wd⟩
      · simp [rosterWriteOk] at hv
      · cases wr <;> cases wi <;> simp [rosterWriteOk] at hv <;>
          simp [writtenEntry] <;> constructor <;> simp [RosterEntry.inString]
    · first
      | exact ⟨h.1.entries p, ht p⟩
      | exact h.2.quiet hm p

theorem CellLaw.writeStore (h : s.CellLaw) (f : MgtFrame) (hc : s.checkWriteTable f = none) :
    (s.writeStore f).CellLaw := by
  simp only [State.writeStore]
  split
  · rename_i ht
    simp only [checkWriteTable, firstReject_eq_none, List.mem_cons, List.not_mem_nil, or_false, forall_eq_or_imp,
      forall_eq, require_eq_none] at hc
    have hm : s.mode ≠ .run := by
      have := hc.2.1
      simp only [ht, bne_self_eq_false, Bool.false_or, beq_iff_eq] at this
      simp [this]
    refine h.writeRoster hm f (fun p w hw => ?_)
    have he := hc.2.2.2.2
    simp only [checkEntries, ht, Option.map_eq_none_iff, List.find?_eq_none, List.mem_range] at he
    have hw' := hw
    simp only [rosterWriteFor] at hw
    split at hw
    · rename_i hr
      have hv := he (p.val - byteOr f.payload 1) (by omega)
      have hp : byteOr f.payload 1 + (p.val - byteOr f.payload 1) = p.val := by omega
      simp only [writeEntryOk, hp, p.isLt, dite_true, Fin.eta, rosterEntryOk, hw'] at hv
      simp only [Bool.not_eq_true', Bool.not_eq_false, Bool.and_eq_true] at hv
      exact hv.1
    · cases hw
  all_goals exact h.congr rfl rfl rfl

theorem CellLaw.startRun (h : s.CellLaw) (hp : s.mga.warmPending = false) : s.startRun.CellLaw :=
  h.renumber.remode (by simp [State.startRun]) (fun hc => absurd (by simp [State.startRun]) hc)
    (fun _ => by simpa [State.startRun] using hp)

theorem CellLaw.fallSafety (h : s.CellLaw) : s.fallSafety.CellLaw := by
  have hl : ∀ l, (s.setLines l).CellLaw := fun l => h.congr rfl rfl rfl
  have hw : ∀ l e, ((s.setLines l).writeLog e).CellLaw := fun l e => (hl l).congr (by simp) (by simp) (by simp)
  have hd : ∀ u : State, u.CellLaw → (u.departRun .safeStop).CellLaw := fun u hu =>
    departRun_cellLaw hu.1 _ (by simp)
  have hr : ∀ u : State, u.mode ≠ .run → u.CellLaw → ((u.setMode .safeStop).urgentBlock).CellLaw := fun u hm hu =>
    hu.remode (by simp) (fun _ => hm) (fun hc => absurd hc (by simp))
  simp only [State.fallSafety]
  split
  · exact hd _ (hw _ _)
  · exact hr _ (by simp [*]) (hw _ _).renumber
  · exact hr _ (by simp [*]) (hw _ _)
  · exact hl _

end Sys2Proof.Machine.State
end

