-- ==== Sys2Proof/Laws/StageLaws.lean ====
section
/-! SUPPORT. The operations that move mode, stage, nest list, grant and ramp gain, and the law of StageLaw they keep. -/

namespace Sys2Proof.Machine.State

variable {s t : State}

/-- StageLaw reads mode and sequencer only. -/
theorem StageLaw.congr (h : s.StageLaw) (hm : t.mode = s.mode) (hr : t.rsq = s.rsq) : t.StageLaw := by
  constructor <;> simp only [hm, hr]
  exacts [h.stage, h.nest, h.grant, h.gain]

/-- The sequencer's part of a departure from RUN obeys the law in every mode. -/
theorem departRun_stageLaw (s : State) (m : Mode) : (s.departRun m).StageLaw := by
  constructor <;> simp [departRun, sequencerRest]

theorem StageLaw.requestTrip (h : s.StageLaw) (r : TripRequest) : (s.requestTrip r).StageLaw := by
  simp only [State.requestTrip]
  split
  · exact departRun_stageLaw _ _
  · exact h

/-- A push leads to INHIBIT in RUN with the ramp at rest and no grant pending. -/
theorem push_stageLaw (hm : s.mode = .run) (st : Stage) (g : Nat) (p : Option PolicyEntry) :
    (s.push st g p).StageLaw := by
  constructor <;> simp [push, enterInhibit, hm]

theorem StageLaw.latchEffect (h : s.StageLaw) (hm : s.mode = .run) (p : Port) : (s.latchEffect p).1.StageLaw := by
  have keep : ∀ t : State, t.mode = s.mode → t.rsq = s.rsq → t.StageLaw := fun t => h.congr
  have pushed : ∀ (t : State) st g q, t.mode = .run → (t.push st g q).StageLaw := fun t st g q ht => push_stageLaw ht st g q
  simp only [State.latchEffect, latchActive, openEpisode, joinRecovery, pushBack]
  repeat' split
  all_goals first
    | with_reducible exact h
    | with_reducible exact pushed _ _ _ _ (by simp [hm])
    | with_reducible exact keep _ (by simp) (by simp)

theorem StageLaw.acceptLatch (h : s.StageLaw) (hm : s.mode = .run) (l : Latch) : (s.acceptLatch l).StageLaw := by
  have he := h.latchEffect hm l.port
  simp only [State.acceptLatch]
  split
  · exact h
  · split
    · exact (he.congr (by simp) (by simp) : ((s.latchEffect l.port).1.countLatch l _ _ _).StageLaw).requestTrip _
    · exact he.congr (by simp) (by simp)

theorem StageLaw.takeLatch (h : s.StageLaw) (l : Latch) : (s.takeLatch l).StageLaw := by
  simp only [State.takeLatch]
  split
  · exact h.acceptLatch ‹_› l
  · exact h.congr (by simp) (by simp)

theorem StageLaw.failAlign (h : s.StageLaw) (p : Port) : (s.failAlign p).StageLaw := by
  simp only [State.failAlign]
  split
  · exact h.acceptLatch ‹_› _
  · exact h

theorem StageLaw.windowStep (h : s.StageLaw) : s.windowStep.StageLaw := by
  have fold : ∀ (l : List Port) (t : State), t.StageLaw → (l.foldl State.failAlign t).StageLaw := by
    intro l
    induction l with
    | nil => exact fun t ht => ht
    | cons p l ih => exact fun t ht => ih _ (ht.failAlign p)
  simp only [State.windowStep]
  refine fold _ _ ?_
  split
  · exact h
  · exact h.congr (by simp) (by simp)

theorem StageLaw.holdStep (h : s.StageLaw) : s.holdStep.StageLaw := by
  have hk : (s.updCli (fun c => { c with holdCount := s.holdAfter })).StageLaw := h.congr (by simp) (by simp)
  simp only [State.holdStep]
  split
  · exact hk.requestTrip _
  · exact hk

theorem StageLaw.failStep (h : s.StageLaw) : s.failStep.StageLaw := by
  have fail : ∀ p, ((s.setRetry p true).closeFailed p).StageLaw := by
    intro p
    simp only [closeFailed]
    split
    · exact StageLaw.requestTrip (h.congr (by simp) (by simp)) _
    · exact h.congr (by simp) (by simp)
  simp only [State.failStep]
  repeat' split
  · rename_i a _ _ _ _
    exact (fail a.port).congr (by simp) (by simp)
  · exact h.congr (by simp) (by simp)
  all_goals exact h

theorem StageLaw.judgePort (h : s.StageLaw) (p : Port) : (s.judgePort p).StageLaw := by
  have ht : ((s.countPort p).updPs (fun q => { q with judged := p :: q.judged })).StageLaw :=
    h.congr (by simp) (by simp)
  simp only [State.judgePort]
  split
  · simp only [enterLost, loseCell, loseIsolating]
    repeat' split
    all_goals first
      | with_reducible exact StageLaw.requestTrip (ht.congr (by simp) (by simp)) _
      | with_reducible exact StageLaw.takeLatch (ht.congr (by simp) (by simp)) _
      | with_reducible exact ht.congr (by simp) (by simp)
  · exact ht

theorem StageLaw.linksStep (h : s.StageLaw) : s.linksStep.StageLaw := by
  have fold : ∀ (l : List Port) (t : State), t.StageLaw → (l.foldl State.judgePort t).StageLaw := by
    intro l
    induction l with
    | nil => exact fun t ht => ht
    | cons p l ih => exact fun t ht => ih _ (ht.judgePort p)
  exact fold _ _ h

theorem StageLaw.remapCompletion (h : s.StageLaw) (hm : s.mode = .run) (hs : s.rsq.stage = .remap) :
    s.remapCompletion.StageLaw := by
  have hg : s.rsq.grantPending = false := by
    by_contra hc
    simpa [hs] using h.grant (by simpa using hc)
  have hr := h.gain
  have hb : s.rebuild.applyRecovery.StageLaw := h.congr (by simp) (by simp)
  have iso : ∀ (l : List Port) (t : State), (l.foldl makeIsolating t).mode = t.mode := fun l t => by simp
  simp only [State.remapCompletion, acceptDeferred]
  repeat' split
  all_goals first
    | with_reducible exact hb.requestTrip _
    | with_reducible exact StageLaw.requestTrip (hb.congr (by simp) (by simp)) _
    | with_reducible exact push_stageLaw (by simp [hm]) _ _ _
    | (constructor <;> simp_all [enterAlign])

theorem StageLaw.stageProgress (h : s.StageLaw) (hm : s.mode = .run) : s.stageProgress.StageLaw := by
  have hg : s.rsq.stage ≠ .awaitGrant → s.rsq.grantPending = false := by
    intro hn
    by_contra hc
    exact hn (h.grant (by simpa using hc))
  have hr := h.gain
  have hn := h.nest
  simp only [State.stageProgress, inhibitProgress, resumeProgress, endResume]
  repeat' split
  all_goals first
    | with_reducible exact h
    | with_reducible exact h.remapCompletion hm ‹_›
    | (constructor <;>
        simp_all [enterIsolate, enterRemap, enterAwaitGrant, enterResume, rampGainAt])

theorem StageLaw.sequencerStep (h : s.StageLaw) : s.sequencerStep.StageLaw := by
  have hk : s.gapStep.StageLaw := by
    simp only [gapStep]
    split
    · constructor <;> simp
      exacts [h.stage, h.nest, h.grant, h.gain]
    · exact h
  simp only [State.sequencerStep]
  repeat' split
  · exact hk.requestTrip _
  · exact hk.stageProgress (by simpa using ‹s.mode = .run›)
  · exact h

end Sys2Proof.Machine.State
end

