-- ==== Sys2Proof/WellFormed.lean ====
section
/-! DEFINITION. When a command is well formed: its operands are ones its row can carry. -/

namespace Sys2Proof

/-- A command is well formed when the bytes it carries are ones its row speaks of: an MGT frame's payload has a
length that passes the form check (R174), and a BAD_DOWNSTREAM_FRAME fails it (R139). Every other operand is legal by
its type; a status frame may be any bytes, since R129 judges them. -/
def Instr.wellFormed : Instr → Bool
  | .mgtFrame f => decide (f.payload.length ≤ 120)
  | .badDownstreamFrame bytes => decide (parseDownstream bytes = .bad)
  | .pinReset | .resetNRise | .periodStart _ _ | .safetyStopFall | .refFrame _ | .stsFrame _ _ | .readTable
  | .writeTable | .commit | .setConfig | .start | .stop | .clear | .warmReset | .forceZero | .release | .relink
  | .readLog | .unknownRequest | .replySent | .warmResetEffect | .portLost _ | .inhibitHoldExpiry | .settleComplete
  | .remapCompletion | .alignComplete | .alignWindowExpiry | .resumeEntry | .resumeEnd | .gapExpired | .controlLost
  | .actuationFailure | .blindDeeming | .actuationIssue _ | .clipLeak | .periodCommitApply | .safetyStopRise => true

end Sys2Proof
end

