-- ==== Sys2Proof/Tests/Slice0.lean ====
section
/-! SUPPORT. Tests of the model: terms that the well-formedness check refuses, values from the spec's worked tables,
single steps, and for each obligation with hypotheses a concrete state that meets them (`test_meets_…`). -/

namespace Sys2Proof.Tests

open Sys2Proof.Machine

-- Many kernel evaluations at once take too much memory in the joined compile.
set_option Elab.async false

/-! ### Well-formedness and frames -/

/-- R174: a payload of 121 bytes is refused, one of 120 is not. -/
theorem test_wellFormed_payload :
    Instr.wellFormed (.mgtFrame ⟨1, 1, List.replicate 121 0⟩) = false ∧
      Instr.wellFormed (.mgtFrame ⟨1, 1, List.replicate 120 0⟩) = true := by decide +kernel

/-- A REF frame as the tests send it. -/
def ref (seq : Byte) : RefFrame :=
  { seq := seq, motionCode := 3, grant := true, token := 41, vA := 0x4E20, vB := 0xD8F0, vC := 0xD8F0 }

/-- R139: bytes that pass the form check are no bad downstream frame; the same bytes with one changed are. -/
theorem test_wellFormed_badFrame :
    Instr.wellFormed (.badDownstreamFrame (encodeRef (ref 7))) = false ∧
      Instr.wellFormed (.badDownstreamFrame ((encodeRef (ref 7)).set 4 0)) = true := by decide +kernel

/-- R175's own check value. -/
theorem test_crc : crc16 [0x31, 0x32, 0x33, 0x34, 0x35, 0x36, 0x37, 0x38, 0x39] = 0x29B1#16 := by decide +kernel

/-- R176: the bytes of a REF frame before its CRC, written out from the layout. -/
theorem test_refBytes : (encodeRef (ref 7)).take 10 =
    [0xA1, 0x07, 0x83, 0x29, 0x4E, 0x20, 0xD8, 0xF0, 0xD8, 0xF0] := by decide +kernel

/-- No row of the opcode table gives bits, so no word spells a command. -/
theorem test_decode_none : decodeTableWord 16 5 = none := by decide

/-! ### Values of the spec's tables -/

/-- Section 4.3, second RESUME period: y of phase B from its accumulator, y′ at g = 256, and the three indices. -/
theorem test_ramp_and_index :
    roundDiv (-135170000) 16384 = -8250 ∧ rampOut (-8250) 256 = -2063 ∧ cellIndex (-2063) 6 5 = -2476 ∧
      rampOut 30000 4 = 117 := by decide +kernel

/-- Section 4.3: compare pairs, with the rows at the limits. -/
theorem test_pairs :
    pairOf 1000 5000 = ⟨576, 424⟩ ∧ pairOf 1000 (-2476) = ⟨462, 538⟩ ∧ pairOf 1000 (-2875) = ⟨456, 544⟩ ∧
      pairOf 1000 20000 = ⟨805, 195⟩ ∧ pairOf 101 0 = ⟨51, 50⟩ ∧ pairOf 4000 32767 = ⟨4000, 0⟩ := by decide +kernel

/-- R96: targets of the table, and phase B one cell short. -/
theorem test_targets :
    (List.range 6).map (fun k => targetOf 1333 k 1000 6) = [1333, 1499, 1666, 1833, 1999, 166] ∧
      (List.range 5).map (fun k => targetOf 666 k 1000 5) = [666, 866, 1066, 1266, 1466] := by decide +kernel

/-- R97: the rows of the table of phase loads. -/
theorem test_loads :
    loadOf 999 0 1000 = .load 999 false ∧ loadOf 1000 0 1000 = .load 1000 true ∧ loadOf 1066 3 1000 = .load 931 true ∧
      loadOf 1999 0 1000 = .load 1 true ∧ loadOf 1999 5 1000 = .load 4 false := by decide +kernel

/-- R98: corrected captures and wrapped errors, the last two rows half a cycle from their targets. -/
theorem test_errors :
    correctedOf 1071 3 1000 = 1068 ∧ correctedOf 1 3 1000 = 1998 ∧ wrapError 1998 1000 = -2 ∧
      wrapError 1000 1000 = 1000 ∧ wrapError (-1000) 1000 = 1000 := by decide +kernel

/-- R53: the supply table. -/
theorem test_supply :
    let h := fun l => (l : List Bool).foldl (fun s ok => (State.setSupply s ok).supplyStep) State.reset
    (h [true]).bau.supply.effective = false ∧ (h [true, true]).bau.supply.effective = true ∧ (h [true, true, false]).bau.supply.effective = true ∧
      (h [true, true, false, true]).bau.supply.effective = true ∧ (h [true, true, false, true, false]).bau.supply.effective = false := by
  decide +kernel

/-! ### States the tests start from -/

/-- The state a command leaves. -/
def after (c : Instr) (s : State) : State :=
  match exec c s with
  | .next t => t
  | .fault _ => s
  | .refused _ => s

/-- An ACTIVE cell at a position. -/
def active (k : Nat) : RosterEntry :=
  { RosterEntry.afterPin with installed := true, role := .active, position := some k, bypassOrder := .opened,
                              contact := .opened }

/-- A SPARE. -/
def spare : RosterEntry := { RosterEntry.afterPin with installed := true, role := .spare, contact := .closed }

/-- A port that is UP and has been sent a frame of the present period. -/
def up : Link := { Link.afterPin with state := .up, tagSent := some 0 }

/-- In RUN in NORMAL: two cells and a spare in phase A, one cell in each other phase, N_nom 2, every policy and every
rebalance entry usable, and a screen entry for each action. -/
def running : State :=
  { State.reset with
    mode := .run
    roster := ((((State.reset.roster.set 0 (active 0)).set 1 (active 1)).set 2 spare).set 8 (active 0)).set 16 (active 0)
    links := ((((State.reset.links.set 0 up).set 1 up).set 2 up).set 8 up).set 16 up
    policyActive := Vector.replicate 7 ⟨true, true, true, 100, 8, 2⟩
    rebalActive := Vector.replicate 64 { RebalEntry.afterPin with valid := true }
    screenActive := ((((State.reset.screenActive.set 0 ⟨true, 1, 1, .pass⟩).set 1 ⟨true, 2, 2, .note⟩).set 2
      ⟨true, 4, 4, .clip⟩).set 3 ⟨true, 8, 8, .latch⟩).set 15 ⟨true, 16, 16, .trip⟩
    settings := { State.reset.settings with nNom := 2 }
    cli := { State.reset.cli with holdCount := 0, current := some ⟨1, 2, 3⟩ } }

/-- The bottom context of an episode that INHIBIT, ISOLATE and the later stages of `recovering` stand in. -/
def context : Context :=
  { restartNumber := 1, interrupted := .normal, deficits := ⟨1, 1, 1⟩, motion := .braked, gapCount := 0,
    policy := some ⟨true, true, true, 100, 8, 2⟩ }

/-- In RUN with an episode open, in a stage; port 1 is ISOLATING. -/
def recovering (st : Stage) : State :=
  { running with
    rsq := { running.rsq with stage := st, nest := [context], gapCount := 1, restartNumber := 1 }
    roster := running.roster.set 1 { active 1 with role := .isolating } }

/-- A request as the tests send it. -/
def request (code : Byte) (payload : List Byte) : MgtFrame := { tag := 9, code := code, payload := payload }

/-- A state with one request waiting in buffer 0. -/
def asked (s : State) (code : Byte) (payload : List Byte) : State :=
  { s with mga := { s.mga with buf0 := .waiting (request code payload) 0 } }

/-- A STANDBY state that START accepts: one ACTIVE cell in each phase, N_nom 1. -/
def ready : State :=
  { running with
    mode := .standby
    roster := ((State.reset.roster.set 0 (active 0)).set 8 (active 0)).set 16 (active 0)
    settings := { State.reset.settings with nNom := 1 } }

/-- A status frame of the present period from port 1 of `running`. -/
def statusOf (word : Half) : StsFrame :=
  { port := 1, tag := 0, word := word, contactCode := 0, vdc := 700, capture := 1999 }

/-- A settled state to which a request of a code has been sent is one that the next service serves. -/
theorem serves_asked {s : State} {code : Byte} {payload : List Byte} (h : s.Settled)
    (free : s.mga.warmPending = false) (empty : s.mga.buf1 = .free) :
    (asked s code payload).Serves code.toNat 0 (request code payload) :=
  ⟨⟨h.running, h.between, h.taken⟩, free, by simp [State.oldestWaiting?, asked, empty], rfl⟩

/-! ### What each obligation supposes is met: step, queue, laws -/

theorem test_meets_EmptyQueueTicksCarrier :
    State.reset.Settled ∧ State.reset.pending = [] ∧ State.reset.ctu.position + 1 < 2 * State.reset.ctu.pInForce ∧
      2 * State.reset.ctu.pInForce ≤ { State.reset.ctu with position := 1999 }.position + 1 :=
  ⟨⟨rfl, rfl, rfl⟩, by decide +kernel⟩

/-- The part held in reset. -/
def held : State := after .pinReset State.reset

theorem test_meets_EmptyQueueTicksCarrier_held : held.lines.resetN = false ∧ held.pending = [] := by decide +kernel

theorem test_meets_InResetAndMidPeriodStart :
    held.lines.resetN = false ∧ Instr.replySent ≠ .pinReset ∧ Instr.replySent ≠ .resetNRise ∧
      Instr.replySent ≠ .safetyStopFall ∧ Instr.replySent ≠ .safetyStopRise := by decide +kernel

/-- A period start left under way by one of its steps. -/
def underWay : State := after (.portLost 2) { running with
  links := running.links.set 2 { up with state := .linking, linkingCount := 63 } }

theorem test_meets_InResetAndMidPeriodStart_underWay :
    underWay.lines.resetN = true ∧ underWay.ps.underWay = true ∧ underWay.pending = [] ∧
      underWay.lines.safetyStopN = true ∧
      (let s := { underWay with lines := { underWay.lines with safetyStopN := false } }
       s.ps.underWay = true ∧ s.lines.resetN = true) := by decide +kernel

/-- One step of a period start taken by a row of its own: the leak of the clip buckets, and the end of RESUME. -/
theorem test_meets_InResetAndMidPeriodStart_steps :
    running.lines.resetN = true ∧ (∃ u, exec .clipLeak { running with ssc := { running.ssc with leakCount := 63 } } = .next u ∧
      u.ps.underWay = true) ∧ running.ps.underWay = false ∧
      let s : State := { recovering .resume with
        rsq := { (recovering .resume).rsq with resumeIndex := 8, resumeLength := 8 } }
      (after .resumeEnd s).ps.underWay = true ∧ s.ps.underWay = false := by
  refine ⟨rfl, ⟨_, rfl, by decide +kernel⟩, rfl, by decide +kernel⟩

/-- A spare of phase A is selected for port 1, whose closing is in flight. -/
def isolating : State :=
  { recovering .isolate with
    roster := (recovering .isolate).roster.set 2 { spare with insertionTarget := some 1 }
    bau := { running.bau with queue := [⟨1, .closed, 0, some 0⟩, ⟨2, .opened, 0, none⟩] }
    log := ⟨1, [{ sequence := 0, stamp := 0, port := some 1, kind := .latchStatus, word := none, mode := .run,
                  stage := .normal, restartNumber := 1, nestDepth := 1, deficits := none }]⟩
    pending := [.refFrame (ref 7)] }

theorem test_meets_StageLawKept : isolating.StageLaw ∧ ∃ t, step isolating = .next t :=
  ⟨⟨by decide +kernel, by decide +kernel, by decide +kernel, by decide +kernel⟩, _, rfl⟩

theorem test_meets_StageLawKept_gap : isolating.GapLaw ∧ isolating.rsq.nest ≠ [] :=
  ⟨⟨by decide +kernel, fun _ => ⟨⟨true, true, true, 100, 8, 2⟩, by decide +kernel, by decide +kernel⟩⟩, by decide +kernel⟩

/-- R165: from a settled state START enters RUN, and a CONTROL_LOST at a period start enters TRIPPED. -/
theorem test_meets_StageLawKept_modes :
    (let s := { asked ready 5 [] with pending := [.start] }
     s.QuietLaw ∧ s.Settled ∧ ∃ t, step s = .next t ∧ t.mode = .run) ∧
    (let s : State := { running with
       pending := [.periodStart true []], cli := { running.cli with holdCount := 3, current := none } }
     s.QuietLaw ∧ s.Settled ∧ ∃ t, step s = .next t ∧ t.mode = .tripped) := by
  refine ⟨⟨⟨fun _ => ?_, fun _ => rfl⟩, ⟨rfl, rfl, rfl⟩, _, rfl, by decide +kernel⟩,
    ⟨⟨fun h => absurd rfl h, fun _ => rfl⟩, ⟨rfl, rfl, rfl⟩, _, rfl, by decide +kernel⟩⟩
  decide +kernel

theorem test_meets_RosterLawKept : isolating.RosterLaw ∧ isolating.QuietLaw ∧ ∃ t, step isolating = .next t := by
  refine ⟨⟨fun p => ⟨?_, ?_, ?_, ?_⟩, ?_, ?_⟩, ⟨fun h => absurd rfl h, fun _ => rfl⟩, _, rfl⟩
  · revert p; decide +kernel
  · revert p; decide +kernel
  · revert p; decide +kernel
  · revert p; decide +kernel
  · decide +kernel
  · decide +kernel

/-- The strings of `isolating` obey R7 and R8 with a cell ISOLATING, and `running` obeys R26 at tuple (0, 1, 1). -/
theorem test_meets_RosterLawKept_strings :
    isolating.StringLaw ∧ isolating.mode ≠ .standby ∧ running.EntryLaw ∧ running.mode = .run ∧
      running.rsq.stage = .normal ∧ ∃ t, step running = .next t :=
  ⟨⟨fun x => by cases x <;> decide +kernel, fun _ x => by cases x <;> decide +kernel⟩, by decide +kernel,
    ⟨fun _ _ => ⟨fun x => by cases x <;> decide +kernel, by decide +kernel⟩⟩, rfl, rfl, _, rfl⟩

theorem test_meets_QueueLawKept : isolating.QueueLaw ∧ ∃ t, step isolating = .next t :=
  ⟨⟨by decide +kernel, by decide +kernel⟩, _, rfl⟩

theorem test_meets_PolicyLawKept : isolating.PolicyLaw ∧ ∃ t, step isolating = .next t := by
  refine ⟨⟨fun i => ⟨?_, ?_, ?_⟩, fun i => ⟨?_, ?_, ?_⟩, ?_, by decide +kernel⟩, _, rfl⟩
  · revert i; decide +kernel
  · revert i; decide +kernel
  · revert i; decide +kernel
  · revert i; decide +kernel
  · revert i; decide +kernel
  · revert i; decide +kernel
  · intro c hc e he
    obtain rfl : c = context := by simpa [isolating, recovering] using hc
    obtain rfl := Option.some.inj he
    exact ⟨by decide, by decide, by decide⟩

theorem test_meets_CarrierLawKept : isolating.CarrierLaw ∧ ∃ t, step isolating = .next t :=
  ⟨⟨by decide +kernel, by decide +kernel, by decide +kernel⟩, _, rfl⟩

theorem test_meets_LogLawKept : isolating.LogLaw ∧ ∃ t, step isolating = .next t :=
  ⟨⟨by decide +kernel, by decide +kernel⟩, _, rfl⟩

/-! ### Frames, resets and lines -/

theorem test_meets_CrcGuardsFrames : (0 : Byte) ++ (0 : Byte) ≠ crc16 [1] := by decide +kernel

theorem test_meets_ResetRise : held.lines.resetN = false ∧ State.reset.lines.resetN = true := by decide +kernel

/-- A warm reset is pending in STANDBY. -/
def warming : State := { ready with mga := { ready.mga with warmPending := true } }

theorem test_meets_WarmResetTakesEffect :
    warming.Settled ∧ warming.mga.warmPending = true ∧
      (warming.lines.safetyStopN = true ∨ warming.mode = .safeStop) ∧
      (∀ b r, UpFrame.reply b r ∈ warming.cli.upstream → ¬(r.code.toNat = 8 ∧ r.result = .done)) ∧
      (let s : State := { warming with lines := { warming.lines with safetyStopN := false } }
       s.Settled ∧ s.mga.warmPending = true ∧ s.lines.safetyStopN = false ∧ s.mode ≠ .safeStop) :=
  ⟨⟨rfl, rfl, rfl⟩, rfl, .inl rfl, by simp [warming, ready, running, State.reset, State.atPinReset, Control.afterPin],
    ⟨rfl, rfl, rfl⟩, rfl, rfl, by decide⟩

theorem test_meets_SafetyStopInput :
    running.Settled ∧ running.lines.safetyStopN = true ∧ running.mode = .run ∧
      ready.Settled ∧ ready.lines.safetyStopN = true ∧ ready.mode = .standby ∧ ready.rsq.stage = .normal ∧
      ready.rsq.nest = [] ∧
      { ready with mode := .tripped }.Settled ∧ { ready with mode := .safeStop }.Settled ∧
      (ready.entry 3).role = .absent ∧
      { ready with lines := { ready.lines with safetyStopN := false } }.Settled :=
  ⟨⟨rfl, rfl, rfl⟩, rfl, rfl, ⟨rfl, rfl, rfl⟩, rfl, rfl, rfl, rfl, ⟨rfl, rfl, rfl⟩, ⟨rfl, rfl, rfl⟩, by decide +kernel, ⟨rfl, rfl, rfl⟩⟩

/-- R168, R134: the fall in RUN leaves SAFE_STOP with an urgent BLOCK behind the frames of a linked port. -/
theorem test_safety_stop :
    let t := after .safetyStopFall running
    t.mode = .safeStop ∧ (t.link 1).transmit.map (fun f => (f.urgent, f.command)) = [(true, .block)] ∧
      t.log.records.map (fun r => r.kind) = [.safetyStop] := by decide +kernel

/-! ### The period start and the control link -/

theorem test_meets_PeriodStartInEveryOrder : running.Settled := ⟨rfl, rfl, rfl⟩

/-- `running` with port 1 in LINKING. -/
def linking : State := { running with links := running.links.set 1 { up with state := .linking } }

theorem test_meets_PeriodFramesComposed :
    linking.Settled ∧
      let t := after (.periodStart true [.compose, .plan]) linking
      (t.link 0).state = .missing ∧ (t.entry 0).role = .active ∧ t.mode = .run ∧ t.rsq.stage = .normal ∧
        (t.link 1).state = .linking ∧ (t.link 2).state = .missing ∧ (t.entry 2).role = .spare ∧
        (t.link 3).state = .idle ∧
        (let u := after (.periodStart true []) { running with links := running.links.set 2 { up with missCount := 2 } }
         (u.link 2).state = .lost) :=
  ⟨⟨rfl, rfl, rfl⟩, by decide +kernel⟩

/-- A rebalance bank whose entries pass the reference of phase A on and clamp it at 0. -/
def clamping : State :=
  let e := { RebalEntry.afterPin with valid := true, coef := ⟨⟨16384, 0, 0⟩, ⟨0, 0, 0⟩, ⟨0, 0, 0⟩⟩ }
  { running with rebalActive := Vector.replicate 64 e }

theorem test_meets_ComputationAtPeriodStart :
    ready.Settled ∧ ready.mode ≠ .run ∧ (recovering .inhibit).rsq.stage = .inhibit ∧
      (recovering .isolate).rsq.stage = .isolate ∧ (recovering .remap).rsq.stage = .remap ∧
      (recovering .align).rsq.stage = .align ∧ clamping.Settled ∧
      let t := after (.periodStart true [.compute]) clamping
      t.mode = .run ∧ t.rsq.stage = .normal ∧ t.rebalActive = clamping.rebalActive ∧ rebalIndex t.deficits = some 5 ∧
        t.rtu.xformClamps = ⟨1, 0, 0⟩ ∧ ∀ x ∈ Phase.list, t.stringLength x ≠ 0 :=
  ⟨⟨rfl, rfl, rfl⟩, by decide +kernel, rfl, rfl, rfl, rfl, ⟨rfl, rfl, rfl⟩, by decide +kernel⟩

/-- `clamping` with a staged bank of zero coefficients marked for the period start. -/
def replacing : State :=
  { clamping with rebalStaged := running.rebalActive, mga := { clamping.mga with periodMarks := ⟨false, true, false⟩ } }

/-- A computation taken before the commit uses the bank it found; taken after it, the one it leaves. And no computation is
made where AWAIT_GRANT goes on, where a lost port takes NORMAL to INHIBIT, or where the control link's loss trips the part. -/
theorem test_meets_ComputationAtPeriodStart_bank :
    replacing.Settled ∧
      (let t := after (.periodStart true [.compute]) replacing
       t.rtu.y.a = 0 ∧ t.rtu.xformClamps = ⟨1, 0, 0⟩ ∧ t.rebalActive = running.rebalActive) ∧
      (let t := after (.periodStart true []) replacing
       t.rtu.xformClamps = ⟨0, 0, 0⟩ ∧ t.rebalActive = running.rebalActive ∧ t.rebalActive ≠ replacing.rebalActive) ∧
      (let t := after (.periodStart true []) (recovering .awaitGrant)
       t.mode = .run ∧ t.rsq.stage = .awaitGrant) ∧
      (let t := after (.periodStart true []) { running with links := running.links.set 1 { up with missCount := 2 } }
       t.mode = .run ∧ t.rsq.stage = .inhibit) ∧
      (let t := after (.periodStart true []) { running with cli := { running.cli with holdCount := 3, current := none } }
       t.mode = .tripped) :=
  ⟨⟨rfl, rfl, rfl⟩, by decide +kernel⟩

/-- ALIGN under way: port 0 stands outside the tolerance, port 8 inside it with a usable capture. -/
def aligning : State :=
  { running with
    rsq := { running.rsq with stage := .align }
    links := running.links.set 8 { up with accepted := true }
    ctu := { running.ctu with
      windowStart := some 0
      ports := (running.ctu.ports.set 0 { CarrierPort.afterPin with lastError := some 9 }).set 8
        { CarrierPort.afterPin with lastError := some 8, capture := some ⟨8, 8, some 8⟩, sent := .trim 0 } } }

theorem test_meets_CarrierPlansAtPeriodStart :
    running.Settled ∧ aligning.Settled ∧
      (let t := after (.periodStart true []) running
       (t.entry 0).role = .active ∧ t.mode = .run ∧ t.rsq.stage = .normal ∧ (t.link 0).state = .missing ∧
         (t.entry 2).role = .spare ∧ (t.entry 3).role = .absent ∧ (t.link 3).state = .idle) ∧
      (let t := after (.periodStart true []) { aligning with ctu := running.ctu }
       t.mode = .run ∧ t.rsq.stage = .align ∧ t.ctu.windowStart = some t.ctu.counter) ∧
      (let t := after (.periodStart true []) aligning
       t.mode = .run ∧ t.rsq.stage = .align ∧ (t.cport 0).lastError = none ∧ (t.cport 8).sent = .trim 4 ∧
         (aligning.link 8).accepted = true) ∧
      ((aligning.cport 8).capture.bind (fun a => a.error)) = some 8 :=
  ⟨⟨rfl, rfl, rfl⟩, ⟨rfl, rfl, rfl⟩, by decide +kernel⟩

/-- AWAIT_GRANT with a restart number whose low byte is the token of `ref`. -/
def awaiting : State :=
  { recovering .awaitGrant with rsq := { (recovering .awaitGrant).rsq with restartNumber := 297 } }

theorem test_meets_RefFrameAccepted :
    awaiting.Settled ∧ awaiting.cli.lastSeq ≠ some (ref 7).seq ∧ (ref 7).grant = true ∧
      awaiting.rsq.stage = .awaitGrant ∧ (ref 7).token = awaiting.rsq.restartNumber.setWidth 8 ∧
      running.rsq.stage ≠ .awaitGrant ∧ awaiting.cli.current.isSome = true ∧
      (after (.refFrame (ref 7)) awaiting).cli.lastSeq = some (ref 7).seq :=
  ⟨⟨rfl, rfl, rfl⟩, by decide +kernel⟩

/-- R47: the grant of `ref` is fresh in `awaiting` and stale in `running`. -/
theorem test_grant :
    (after (.refFrame (ref 7)) awaiting).rsq.grantPending = true ∧
      (after (.refFrame (ref 7)) running).rsq.grantPending = false ∧
      hasFlag (after (.refFrame (ref 7)) running).cli.flags .grantStale = true := by decide +kernel

/-- Both buffers hold a request. -/
def full : State :=
  { running with mga := { running.mga with buf0 := .waiting (request 1 []) 1, buf1 := .answered (request 2 []) 0 } }

theorem test_meets_DownstreamFramesRouted_requests :
    running.Settled ∧ (request 1 (List.replicate 120 0)).payload.length ≤ 120 ∧ running.mga.buf0 = .free ∧
      (asked running 1 []).Settled ∧ (asked running 1 []).mga.buf0 ≠ .free ∧ (asked running 1 []).mga.buf1 = .free ∧
      full.Settled ∧ full.mga.buf0 ≠ .free ∧ full.mga.buf1 ≠ .free :=
  ⟨⟨rfl, rfl, rfl⟩, by decide +kernel, rfl, ⟨rfl, rfl, rfl⟩, by decide +kernel, rfl, ⟨rfl, rfl, rfl⟩, by decide +kernel⟩

theorem test_meets_DownstreamFramesRouted :
    running.Settled ∧ parseDownstream [] = .bad ∧ parseDownstream (encodeRef (ref 7)) = .ref (ref 7) ∧
      parseDownstream (encodeMgt (request 1 [5])) = .mgt (request 1 [5]) :=
  ⟨⟨rfl, rfl, rfl⟩, by decide +kernel⟩

/-- The DONE of a WARM_RESET waits behind a digest. -/
def replying : State :=
  { warming with cli := { warming.cli with upstream := (after (.periodStart true []) State.reset).cli.upstream ++
      [.reply 0 { tag := 9, code := 8, result := .done, detail := 0, payload := [] }] } }

/-- A reply stands before the last digest of the list. -/
def sending : State :=
  { replying with mga := full.mga, cli := { replying.cli with upstream := replying.cli.upstream ++
      (after (.periodStart true []) State.reset).cli.upstream } }

theorem test_meets_ReplySentFreesBuffer_due :
    sending.cli.upstream.map (fun x => x.isDigest) = [true, false, true] ∧ sending.sendDue ≠ sending ∧
      (after (.periodStart true []) State.reset).cli.upstream.map (fun x => x.isDigest) = [true] ∧
      (∀ x ∈ running.cli.upstream, x.isDigest = false) := by decide +kernel

theorem test_meets_ReplySentFreesBuffer :
    replying.Settled ∧ replying.mga.warmPending = true ∧
      replying.cli.upstream.map (fun x => x.isDigest) = [true, false] ∧
      replying.cli.upstream.getLast? =
        some (.reply 0 { tag := 9, code := 8, result := .done, detail := 0, payload := [] }) ∧
      (∀ x ∈ running.cli.upstream, x.isDigest = true) ∧ running.mga.warmPending = false :=
  ⟨⟨rfl, rfl, rfl⟩, by decide +kernel⟩

/-! ### Status frames, screening and latches -/

theorem test_meets_StatusFrameDiscarded :
    running.Settled ∧ running.checkSts [] = none ∧
      running.checkSts (encodeSts { statusOf 0 with capture := 2000 }) = none ∧
      running.checkSts (encodeSts (statusOf 0)) = some (statusOf 0) ∧ (statusOf 0).port.toNat ≠ (0 : Port).val ∧
      (running.link 1).tagSent ≠ some { statusOf 0 with tag := 255 }.tag ∧
      ((after (.stsFrame 1 ⟨encodeSts (statusOf 0), false⟩) running).link 1).accepted = true :=
  ⟨⟨rfl, rfl, rfl⟩, by decide +kernel⟩

theorem test_meets_StatusFrameAccepted :
    running.Settled ∧ running.checkSts (encodeSts (statusOf 8)) = some (statusOf 8) ∧
      (statusOf 8).port.toNat = (1 : Port).val ∧ (running.link 1).state = .up ∧
      (running.link 1).tagSent = some (statusOf 8).tag ∧ (running.link 1).accepted = false :=
  ⟨⟨rfl, rfl, rfl⟩, by decide +kernel⟩

/-- In ALIGN, with port 1's OPEN in flight and a target that the capture of `statusOf` stands one tick before. -/
def confirming : State :=
  { aligning with
    bau := { running.bau with queue := [⟨1, .opened, 0, some 0⟩] }
    ctu := { aligning.ctu with ports := aligning.ctu.ports.set 1 { CarrierPort.afterPin with target := some 0 } } }

theorem test_meets_StatusFrameConfirmsAndJudges :
    confirming.Settled ∧ confirming.checkSts (encodeSts (statusOf 0)) = some (statusOf 0) ∧
      (statusOf 0).port.toNat = (1 : Port).val ∧ (confirming.link 1).state = .up ∧
      (confirming.link 1).tagSent = some (statusOf 0).tag ∧ (confirming.link 1).accepted = false ∧
      (confirming.cport 1).target = some 0 ∧ (confirming.cport 1).sent = .nothing ∧ confirming.mode = .run ∧
      confirming.rsq.stage = .align ∧ (confirming.entry 1).role = .active ∧
      (let t := after (.stsFrame 1 ⟨encodeSts (statusOf 0), false⟩) confirming
       t.bau.queue = [] ∧ (t.cport 1).lastError = some (-1) ∧ (t.cport 1).passCount = 1) ∧
      (let t := after (.stsFrame 1 ⟨encodeSts { statusOf 0 with capture := 9 }, false⟩) confirming
       (t.cport 1).lastError = some 9 ∧ confirming.settings.aTol = 8) ∧
      (running.cport 1).target = none ∧ running.bau.queue = [] ∧ running.rsq.stage ≠ .align :=
  ⟨⟨rfl, rfl, rfl⟩, by decide +kernel⟩

/-- R119: a word classified LATCH opens an episode. -/
theorem test_status_latch :
    let t := after (.stsFrame 1 ⟨encodeSts (statusOf 8), false⟩) running
    t.rsq.stage = .inhibit ∧ (t.entry 1).role = .isolating ∧ t.torqueGap = true := by decide +kernel

/-- ALIGN of a START, in the last period of the alignment window, with no cell aligned. -/
def closing : State :=
  { running with
    rsq := { running.rsq with stage := .align }, ctu := { running.ctu with windowStart := some 0, counter := 15 } }

/-- R114, R122: a LATCH frame as its cell fails the alignment window. With the latch late the frame is screened and its
hit counted, and the latch finds the cell ISOLATING: the ALIGN_FAIL latch alone is counted and logged. With the latch
taken at once it is the LATCH_STATUS latch that is. -/
theorem test_late_latch :
    let f := encodeSts (statusOf 8)
    let s := after (.stsFrame 1 ⟨f, true⟩) closing
    let t := after (.periodStart true []) s
    let r := after (.periodStart true []) (after (.stsFrame 1 ⟨f, false⟩) closing)
    let ofPort := fun u : State => (u.log.records.filter (fun r => r.port == some 1)).map (fun r => r.kind)
    s.ssc.handed.length = 1 ∧ (s.entry 1).role = .active ∧ t.ssc.handed = [] ∧ t.ssc.hits[3] = 1 ∧
      (t.entry 1).role = .isolating ∧ (t.entry 1).latchCount = 1 ∧ ofPort t = [.alignFail] ∧
      ofPort r = [.latchStatus] ∧ (after .replySent s).rsq.stage = .inhibit := by decide +kernel

theorem test_meets_ScreenedWordsThatRemoveOrTrip_handed :
    closing.Settled ∧ (isolating.entry 1).role = .isolating ∧ isolating.mode = .run ∧ running.Settled ∧
      running.pending = [] ∧ running.lines.safetyStopN = true ∧
      { running with lines := { running.lines with safetyStopN := false } }.Settled :=
  ⟨⟨rfl, rfl, rfl⟩, by decide +kernel, rfl, ⟨rfl, rfl, rfl⟩, rfl, rfl, ⟨rfl, rfl, rfl⟩⟩

theorem test_meets_ScreenedWordsWithoutLatch :
    (running.entry 3).role = .absent ∧ running.deciding? 0 = none ∧ running.deciding? 1 = some 0 ∧
      running.deciding? 2 = some 1 ∧ running.deciding? 4 = some 2 ∧
      (running.entry 1).clipBucket + 1 < running.settings.clipLimit ∧ (running.entry 2).role = .spare := by
  decide +kernel

/-- R117: one below the escalation, a CLIP still fills the bucket only; with one clip more it escalates. -/
theorem test_meets_ScreenedWordsWithoutLatch_boundary :
    let s : State := { running with roster := running.roster.set 1 { active 1 with clipBucket := 2 } }
    s.deciding? 4 = some 2 ∧ (s.entry 1).clipBucket + 2 = s.settings.clipLimit ∧
      ((s.screenWord 1 4 false).entry 1).clipBucket = 3 ∧ (s.screenWord 1 4 false).rsq.stage = .normal ∧
      (((s.screenWord 1 4 false).screenWord 1 4 false).entry 1).role = .isolating := by decide +kernel

/-- `running` with port 1's clip bucket one below clip_limit. -/
def clipped : State := { running with roster := running.roster.set 1 { active 1 with clipBucket := 3 } }

theorem test_meets_ScreenedWordsThatRemoveOrTrip :
    clipped.deciding? 8 = some 3 ∧ clipped.deciding? 4 = some 2 ∧ clipped.deciding? 16 = some 15 ∧
      (clipped.entry 1).role = .active ∧ clipped.settings.clipLimit ≤ (clipped.entry 1).clipBucket + 1 ∧
      clipped.mode = .run ∧ ready.deciding? 16 = some 15 ∧ ready.mode ≠ .run ∧ (ready.entry 0).role = .active := by
  decide +kernel

/-- `running` with a policy for every motion state. -/
def under (e : PolicyEntry) : State := { running with policyActive := Vector.replicate 7 e }

/-- A state with port 1 ACTIVE and LOST. -/
def lost (s : State) : State :=
  { s with links := s.links.set 1 { up with state := .lost, tagSent := none }, roster := s.roster.set 1 (active 1) }

/-- A state with port 1 ACTIVE, before the latch. -/
def whole (s : State) : State := { s with roster := s.roster.set 1 (active 1) }

theorem test_meets_LatchOpensEpisode :
    running.mode = .run ∧ (running.entry 1).role = .active ∧ (running.entry 1).deferred = false ∧
      running.rsq.nest = [] ∧ (running.policyActive[running.cli.motion.index.val]).restartAllowed = true ∧
      ((running.link 1).state ≠ .lost ∨
        (running.policyActive[running.cli.motion.index.val]).blindAllowed = true) := by decide +kernel

theorem test_meets_LatchPushesContext :
    let s := whole (recovering .resume)
    s.mode = .run ∧ (s.entry 1).role = .active ∧ (s.entry 1).deferred = false ∧ s.rsq.nest ≠ [] ∧
      s.episodePolicy = some ⟨true, true, true, 100, 8, 2⟩ ∧ s.rsq.stage = .resume ∧ s.rsq.nest.length < 2 ∧
      (s.link 1).state ≠ .lost ∧ (whole (recovering .align)).rsq.stage = .align ∧
      (whole (recovering .awaitGrant)).rsq.stage = .awaitGrant := by decide +kernel

theorem test_meets_LatchWithoutPush :
    ((recovering .isolate).entry 1).role = .isolating ∧ (recovering .isolate).mode = .run ∧
      (recovering .isolate).rsq.nest ≠ [] ∧ ((recovering .isolate).entry 0).role = .active ∧
      ((recovering .isolate).link 0).state ≠ .lost ∧ (recovering .inhibit).rsq.stage = .inhibit ∧
      (recovering .remap).rsq.stage = .remap ∧ ((recovering .remap).entry 0).deferred = false ∧
      ((recovering .remap).entry 2).role = .spare ∧ ((recovering .remap).entry 3).role = .absent ∧
      isolating.mode = .run ∧ (isolating.entry 2).insertionTarget.isSome = true ∧ isolating.rsq.stage = .isolate := by
  decide +kernel

theorem test_meets_LatchTripsPart :
    (under ⟨false, true, true, 100, 8, 2⟩).activePolicy.restartAllowed = false ∧
      ((under ⟨false, true, true, 100, 8, 2⟩).entry 1).role = .active ∧
      (lost (under ⟨true, true, false, 100, 8, 2⟩)).activePolicy.blindAllowed = false ∧
      ((lost (under ⟨true, true, false, 100, 8, 2⟩)).link 1).state = .lost ∧
      (let s := lost { recovering .isolate with
          rsq := { (recovering .isolate).rsq with nest := [{ context with policy := some ⟨true, true, false, 9, 8, 1⟩ }] } }
       s.rsq.nest ≠ [] ∧ s.rsq.stage ≠ .remap ∧ s.governingPolicy.blindAllowed = false ∧
         (s.link 1).state = .lost ∧ (s.entry 1).role = .active) ∧
      (let s := whole { recovering .align with
          rsq := { (recovering .align).rsq with nest := [{ context with policy := some ⟨true, true, false, 9, 8, 1⟩ }] } }
       s.governingPolicy.maxNest ≤ s.rsq.nest.length ∧ s.rsq.stage = .align ∧ (s.link 1).state ≠ .lost ∧
         (s.entry 1).role = .active ∧ (s.entry 1).deferred = false ∧ s.mode = .run) := by decide +kernel

theorem test_meets_LatchOutsideRun :
    ready.mode ≠ .run ∧ (ready.entry 0).role = .active ∧ (ready.entry 3).role = .absent ∧
      { running with mode := .tripped }.mode ≠ .run ∧ ({ running with mode := .tripped }.entry 2).role = .spare := by
  decide +kernel

/-- R18: a latch of a SPARE outside RUN renumbers its string, which stood with a gap. -/
theorem test_latch_spare_renumbers :
    let s : State := { ready with roster := (ready.roster.set 0 (active 3)).set 1 spare }
    let t := s.takeLatch { kind := .linkLost, port := 1 }
    (t.entry 1).role = .bypassed ∧ (t.entry 0).position = some 0 := by decide +kernel

/-- Two cells of phase A have been removed, and ports 2, 3 and 4 are fitted as spares of rank 1, 0 and 0. -/
def short : State :=
  let s := recovering .isolate
  let roster := (s.roster.set 0 { active 0 with role := .isolating }).set 2 { spare with rank := 1 }
  { s with
    roster := (roster.set 3 spare).set 4 spare
    links := (s.links.set 3 up).set 4 up }

theorem test_meets_SparesSelected :
    short.mode = .run ∧ short.episodePolicy = some ⟨true, true, true, 100, 8, 2⟩ ∧
      (short.entry 0).position = some 0 ∧ (short.entry 1).position = some 1 ∧
      (let t := short.selectSpares
       (t.entry 3).insertionTarget = some 0 ∧ (t.entry 4).insertionTarget = some 1 ∧
         (t.entry 2).insertionTarget = none) ∧ running.episodePolicy = none := by decide +kernel

/-- `ready` with a spare at port 17 whose contactor is ordered open. -/
def reclosing : State :=
  { ready with roster := ready.roster.set 17 { spare with bypassOrder := .opened }, links := ready.links.set 17 up }

theorem test_meets_ReconciliationAndSettleCount :
    reclosing.Settled ∧ reclosing.mode ≠ .run ∧ (reclosing.entry 17).standing = some .closed ∧
      (reclosing.entry 17).bypassOrder ≠ .closed ∧ reclosing.bau.queue = [] ∧
      ((after (.periodStart true []) reclosing).link 17).state = .missing ∧
      (let s : State := { isolating with ps := { isolating.ps with stageEnded := .isolate } }
       let u : State := { s with
         roster := (s.roster.set 1 { active 1 with role := .isolating, blind := true }).set 2 spare }
       s.mode = .run ∧ s.settleStep.bau.settleCount = 0 ∧ u.mode = .run ∧ u.settleStep.bau.settleCount = 1) :=
  ⟨⟨rfl, rfl, rfl⟩, by decide +kernel⟩

theorem test_meets_TripRequestDeparts : ready.mode ≠ .run ∧ running.mode = .run := by decide +kernel

theorem test_meets_DepartureFromRun : Mode.standby ≠ .run ∧ (isolating.entry 2).role = .spare := by decide +kernel

/-! ### Services -/

theorem test_meets_RefusalChangesNothing :
    (Instr.start, 5, State.checkStart) ∈ services ∧ (asked running 5 []).Serves 5 0 (request 5 []) ∧
      (asked running 5 []).checkStart (request 5 []) = some (.refusedState, 1) ∧
      (Instr.writeTable, 2, State.checkWriteTable) ∈ services ∧ (asked ready 2 [4]).Serves 2 0 (request 2 [4]) ∧
      (asked ready 2 [4]).checkWriteTable (request 2 [4]) = some (.badTable, 0) :=
  ⟨by simp [services], serves_asked ⟨rfl, rfl, rfl⟩ rfl rfl, by decide +kernel, by simp [services],
    serves_asked ⟨rfl, rfl, rfl⟩ rfl rfl, by decide +kernel⟩

theorem test_meets_RefusalChangesNothing_unknownCode :
    (asked running 13 []).Settled ∧ (asked running 13 []).mga.warmPending = false ∧
      (asked running 13 []).oldestWaiting? = some (0, request 13 []) ∧ 12 < (request 13 []).code.toNat ∧
      (asked running 0 []).oldestWaiting? = some (0, request 0 []) ∧ (request 0 []).code.toNat = 0 :=
  ⟨⟨rfl, rfl, rfl⟩, by decide +kernel⟩

theorem test_meets_RefusalChangesNothing_answer : (asked ready 2 [4]).oldestWaiting? = some (0, request 2 [4]) := by decide +kernel

theorem test_meets_RefusalChangesNothing_withoutRequest :
    (Instr.stop, 6, State.checkStop) ∈ services ∧ warming.Settled ∧ warming.mga.warmPending = true ∧
      running.Settled ∧ running.oldestWaiting? = none ∧ (asked running 5 []).Settled ∧
      (asked running 5 []).oldestWaiting? = some (0, request 5 []) ∧ (request 5 []).code.toNat ≠ 6 :=
  ⟨by simp [services], ⟨rfl, rfl, rfl⟩, rfl, ⟨rfl, rfl, rfl⟩, rfl, ⟨rfl, rfl, rfl⟩, by decide +kernel⟩

/-- UNKNOWN_REQUEST with a known code at the front, with no request waiting, and with a warm reset pending. -/
theorem test_meets_RefusalChangesNothing_known :
    (asked running 12 []).Settled ∧ (asked running 12 []).oldestWaiting? = some (0, request 12 []) ∧
      1 ≤ (request 1 []).code.toNat ∧ (request 12 []).code.toNat = 12 ∧ running.Settled ∧
      running.oldestWaiting? = none ∧ warming.Settled ∧ warming.mga.warmPending = true :=
  ⟨⟨rfl, rfl, rfl⟩, by decide +kernel, by decide +kernel, by decide +kernel, ⟨rfl, rfl, rfl⟩, rfl, ⟨rfl, rfl, rfl⟩, rfl⟩

/-- Readouts with an entry present and absent: nest list, queue, window start, and each kind of plan. -/
theorem test_meets_ReadsAnswerDone_entries :
    isolating.rsq.nest[0]? = some context ∧ isolating.rsq.nest[1]? = none ∧
      isolating.bau.queue[0]? = some ⟨1, .closed, 0, some 0⟩ ∧ isolating.bau.queue[2]? = none ∧
      aligning.ctu.windowStart = some 0 ∧ running.ctu.windowStart = none ∧ (aligning.cport 8).sent = .trim 0 ∧
      (running.cport 0).sent = .nothing ∧
      (∃ n down, ((after (.periodStart true []) { aligning with ctu := running.ctu }).cport 0).sent = .load n down) ∧
      isolating.tableEntry .nest 0 0 =
        [1, 0, 1, 0, 1, 1, 1, 0, 0, 0, 1, 7, 0, 100, 8, 2] := by
  refine ⟨rfl, rfl, rfl, rfl, rfl, rfl, by decide +kernel, by decide +kernel, ⟨0, false, by decide +kernel⟩, by decide +kernel⟩

/-- R71, R174: an ACTUATION entry past the queue reads without a port and as not issued. -/
theorem test_empty_actuation_entry :
    let e := isolating.tableEntry .actuation 0 2
    e.length = 10 ∧ e.head? = some 0xFF ∧ (e.getD 1 0 &&& 0xFE) = 0 ∧ e.drop 6 = [0, 0, 0, 0] := by
  change _ ∧ _ ∧ (BitVec.ofNat 8 (bit Config.emptyActuationClosed) &&& 0xFE) = 0 ∧ _
  cases Config.emptyActuationClosed <;> exact ⟨rfl, rfl, rfl, rfl⟩

/-- Requests that pass every check of theirs, and one that fails the first. -/
theorem test_meets_ReadsAnswerDone :
    (asked running 1 [0, 0, 20, 4]).Serves 1 0 (request 1 [0, 0, 20, 4]) ∧
      (asked running 1 [1, 1, 8, 8]).Serves 1 0 (request 1 [1, 1, 8, 8]) ∧
      (asked running 1 [11, 0, 0, 1]).Serves 1 0 (request 1 [11, 0, 0, 1]) ∧
      (asked isolating 12 [0, 0, 4]).Serves 12 0 (request 12 [0, 0, 4]) ∧
      (asked isolating 12 [0, 7, 4]).Serves 12 0 (request 12 [0, 7, 4]) ∧
      (20 + 4 ≤ 24 ∧ 4 + 0 + 4 * 14 ≤ 120) ∧ (8 + 8 ≤ 16 ∧ 4 + 2 + 8 * 7 ≤ 120 ∧ 1 ≤ 1) ∧
      byteOr (request 1 [11, 0, 0, 1]).payload 0 = 11 ∧
      isolating.log.records.map (fun r => r.sequence) = [halfAt [0, 0, 4] 0] ∧ halfAt [0, 7, 4] 0 = 7 :=
  ⟨serves_asked ⟨rfl, rfl, rfl⟩ rfl rfl, serves_asked ⟨rfl, rfl, rfl⟩ rfl rfl, serves_asked ⟨rfl, rfl, rfl⟩ rfl rfl,
    serves_asked ⟨rfl, rfl, rfl⟩ rfl rfl, serves_asked ⟨rfl, rfl, rfl⟩ rfl rfl, by decide +kernel⟩

/-- A roster write: port 16 keeps its cell, ports 17 and 18 are given, port 19 stays empty. -/
def rosterWrite : List Byte := [0, 15, 3, 0x82, 0, 0, 0, 0x81, 0, 0, 63, 0, 0, 0, 0]

/-- `ready` with port 17 fitted as a spare. -/
def fitted : State := { ready with roster := ready.roster.set 17 spare }

theorem test_meets_RosterWriteStored :
    (asked fitted 2 rosterWrite).Serves 2 0 (request 2 rosterWrite) ∧
      (asked running 2 rosterWrite).Serves 2 0 (request 2 rosterWrite) ∧ running.mode ≠ .standby ∧
      fitted.mode = .standby ∧ byteOr rosterWrite 0 = 0 ∧ byteOr rosterWrite 1 = 15 ∧ byteOr rosterWrite 2 = 3 ∧
      rosterWrite.length = 3 + 3 * 4 ∧
      (List.range 3).map (fun k => (byteOr rosterWrite (3 + 4 * k), byteOr rosterWrite (3 + 4 * k + 3))) =
        [(0x82, 0), (0x81, 63), (0, 0)] ∧
      (fitted.entry 15).installed = false ∧ (fitted.entry 16).installed = true ∧ (fitted.entry 17).installed = true ∧
      fitted.activeCount .c = 1 ∧ fitted.settings.nNom = 1 :=
  ⟨serves_asked ⟨rfl, rfl, rfl⟩ rfl rfl, serves_asked ⟨rfl, rfl, rfl⟩ rfl rfl, by decide +kernel⟩

/-- R19, R125: the write installs port 15, whose link is LINKING, and takes port 17 away, whose link is IDLE. -/
theorem test_roster_write :
    let t := after .writeTable (asked fitted 2 rosterWrite)
    (t.link 15).state = .linking ∧ (t.entry 16).linkDelay = 63 ∧ (t.link 17).state = .idle ∧
      (t.entry 17).role = .absent := by decide +kernel

/-- Writes that pass every check, one for each staged bank, and one with an invalid entry: the answers. -/
theorem test_meets_StagedWriteStored :
    (let screen := [1, 15, 1] ++ [0x84, 0xFF, 0xFF, 0, 1]
     (asked running 2 screen).Serves 2 0 (request 2 screen) ∧ byteOr screen 0 = 1 ∧ screen.length = 3 + 1 * 5 ∧
       byteOr screen 3 % 8 ≤ 4 ∧ 15 + 1 ≤ 16) ∧
    (let rebal := [2, 63, 1] ++ List.replicate 21 1
     (asked running 2 rebal).Serves 2 0 (request 2 rebal) ∧ byteOr rebal 0 = 2 ∧ rebal.length = 3 + 1 * 21 ∧
       byteOr rebal 3 ≤ 1 ∧ (halfAt rebal 22).toNat ≤ 32767) ∧
    (let policy := [3, 6, 1] ++ [7, 0x0F, 0xFF, 255, 3]
     (asked running 2 policy).Serves 2 0 (request 2 policy) ∧ byteOr policy 0 = 3 ∧ policy.length = 3 + 1 * 5 ∧
       (halfAt policy 4).toNat = 4095 ∧ byteOr policy 6 = 255 ∧ byteOr policy 7 = 3) ∧
    (let bad := [1, 14, 2] ++ [0x84, 0, 0, 0, 0] ++ [5, 0, 0, 0, 0]
     (asked running 2 bad).Serves 2 0 (request 2 bad) ∧ byteOr bad 8 % 8 = 5) :=
  ⟨⟨serves_asked ⟨rfl, rfl, rfl⟩ rfl rfl, by decide +kernel⟩, ⟨serves_asked ⟨rfl, rfl, rfl⟩ rfl rfl, by decide +kernel⟩,
    ⟨serves_asked ⟨rfl, rfl, rfl⟩ rfl rfl, by decide +kernel⟩, ⟨serves_asked ⟨rfl, rfl, rfl⟩ rfl rfl, by decide +kernel⟩⟩

/-- COMMITs that pass every check, in STANDBY and in RUN, and one refused for the rebalance entry at its tuple. -/
theorem test_meets_CommitCopiesOrMarks :
    (asked ready 3 [4, 1]).Serves 3 0 (request 3 [4, 1]) ∧ ready.mode = .standby ∧
      (asked running 3 [1, 0]).Serves 3 0 (request 3 [1, 0]) ∧ running.mode ≠ .standby ∧
      (asked running 3 [2, 0]).Serves 3 0 (request 3 [2, 0]) ∧ running.deficits = ⟨0, 1, 1⟩ ∧
      (running.rebalStaged[5]).valid = false :=
  ⟨serves_asked ⟨rfl, rfl, rfl⟩ rfl rfl, rfl, serves_asked ⟨rfl, rfl, rfl⟩ rfl rfl, by decide +kernel,
    serves_asked ⟨rfl, rfl, rfl⟩ rfl rfl, by decide +kernel⟩

/-- A SET_CONFIG that passes every check, one with a field outside its range, and one refused for its N_nom. -/
theorem test_meets_ConfigReplacedWhole :
    (let p := settingsBytes running.settings
     (asked ready 4 p).Serves 4 0 (request 4 p) ∧ p.length = 23 ∧ byteOr p 0 = 2 ∧ byteOr p 1 * 256 + byteOr p 2 = 1000 ∧
       byteOr p 9 = 4 ∧ byteOr p 17 = 30 ∧ ready.activeCount .a = 1 ∧ ready.mode = .standby) ∧
    (let p := settingsBytes { running.settings with j := 0 }
     (asked ready 4 p).Serves 4 0 (request 4 p) ∧ byteOr p 9 = 0) ∧
    (let p := settingsBytes running.settings
     let s : State := { ready with roster := (ready.roster.set 1 (active 1)).set 2 (active 2) }
     (asked s 4 p).Serves 4 0 (request 4 p) ∧ s.activeCount .a = 3) :=
  ⟨⟨serves_asked ⟨rfl, rfl, rfl⟩ rfl rfl, by decide +kernel⟩, ⟨serves_asked ⟨rfl, rfl, rfl⟩ rfl rfl, by decide +kernel⟩,
    ⟨serves_asked ⟨rfl, rfl, rfl⟩ rfl rfl, by decide +kernel⟩⟩

/-- The result and the detail of the newest reply. -/
def answerOf (s : State) : Option (Result × Byte) :=
  match s.cli.upstream.getLast? with
  | some (.reply _ r) => some (r.result, r.detail)
  | _ => none

/-- R154, R155, R157: the answers to a write with an invalid second entry, a COMMIT without its entry, and a
SET_CONFIG with field 6 outside its range. -/
theorem test_refusals :
    answerOf (after .writeTable (asked running 2 ([1, 14, 2] ++ [0x84, 0, 0, 0, 0] ++ [5, 0, 0, 0, 0]))) =
      some (.badValue, 1) ∧
    answerOf (after .commit (asked running 3 [2, 0])) = some (.refusedState, 5) ∧
    answerOf (after .setConfig (asked ready 4 (settingsBytes { running.settings with j := 0 }))) =
      some (.badValue, 6) := by decide +kernel

/-- A START that passes every check: the spec's conditions, one by one. -/
theorem test_meets_StartEntersRun :
    (asked ready 5 []).Serves 5 0 (request 5 []) ∧ ready.mode = .standby ∧ ready.lines.safetyStopN = true ∧
      ready.cli.holdCount < ready.settings.refHoldLimit ∧ (∀ p, (ready.entry p).role ≠ .failed) ∧
      (∀ x ∈ Phase.list, 1 ≤ ready.activeCount x ∧ ready.activeCount x ≤ ready.settings.nNom ∧
        (ready.phaseString x).map (fun p => (ready.entry p).position) =
          (List.range (ready.stringLength x)).map some) ∧
      (∀ p, (ready.entry p).role ≠ .isolating ∧ ((ready.entry p).role = .active → (ready.link p).state = .up ∧
        (ready.entry p).bypassOrder = .opened ∧ (ready.entry p).contact = .opened)) ∧
      (∀ p, (ready.entry p).role ≠ .spare ∧ (ready.entry p).role ≠ .bypassed) ∧ ready.bau.queue.head? = none ∧
      ready.deficits = ⟨0, 0, 0⟩ ∧ (ready.rebalActive[0]).valid = true ∧ 0 < ready.settings.nNom :=
  ⟨serves_asked ⟨rfl, rfl, rfl⟩ rfl rfl, by decide +kernel⟩

/-- R31, R20: a START that passes enters RUN at stage ALIGN; with an actuation in flight check 7 refuses it. -/
theorem test_start :
    (let t := after .start (asked ready 5 [])
     t.mode = .run ∧ t.rsq.stage = .align ∧ answerOf t = some (.done, 0)) ∧
    (let s : State := { ready with bau := { ready.bau with queue := [⟨17, .closed, 0, some 0⟩] } }
     answerOf (after .start (asked s 5 [])) = some (.refusedState, 7)) := by decide +kernel

theorem test_meets_ModeRequests :
    (asked running 6 []).Serves 6 0 (request 6 []) ∧ (asked running 6 []).mode = .run ∧
      (let s := asked { ready with mode := .safeStop } 7 []
       s.Serves 7 0 (request 7 []) ∧ s.mode = .safeStop ∧ s.lines.safetyStopN = true) ∧
      (let s := asked { ready with mode := .tripped } 7 []
       s.Serves 7 0 (request 7 []) ∧ s.mode = .tripped) ∧
      (let s := asked { ready with mode := .safeStop, lines := { ready.lines with safetyStopN := false } } 7 []
       s.Serves 7 0 (request 7 []) ∧ s.mode = .safeStop ∧ s.lines.safetyStopN = false) ∧
      (asked ready 8 []).Serves 8 0 (request 8 []) ∧ (asked ready 8 []).mode ≠ .run ∧
      (asked ready 6 []).Serves 6 0 (request 6 []) ∧ (asked ready 6 []).mode ≠ .run ∧
      (asked running 7 []).Serves 7 0 (request 7 []) ∧ (asked running 8 []).Serves 8 0 (request 8 []) :=
  ⟨serves_asked ⟨rfl, rfl, rfl⟩ rfl rfl, rfl, ⟨serves_asked ⟨rfl, rfl, rfl⟩ rfl rfl, rfl, rfl⟩,
    ⟨serves_asked ⟨rfl, rfl, rfl⟩ rfl rfl, rfl⟩, ⟨serves_asked ⟨rfl, rfl, rfl⟩ rfl rfl, rfl, rfl⟩,
    serves_asked ⟨rfl, rfl, rfl⟩ rfl rfl, by decide +kernel, serves_asked ⟨rfl, rfl, rfl⟩ rfl rfl, by decide +kernel,
    serves_asked ⟨rfl, rfl, rfl⟩ rfl rfl, serves_asked ⟨rfl, rfl, rfl⟩ rfl rfl⟩

theorem test_meets_PortRequests :
    (asked running 9 [16, 0]).Serves 9 0 (request 9 [16, 0]) ∧ byteOr (request 9 [16, 0]).payload 0 = (16 : Port).val ∧
      (running.link 16).state ≠ .idle ∧ byteOr (request 9 [16, 0]).payload 1 = 0 ∧
      (asked running 9 [0, 1]).Serves 9 0 (request 9 [0, 1]) ∧ byteOr (request 9 [0, 1]).payload 1 = 1 ∧
      (asked running 9 [23, 1]).Serves 9 0 (request 9 [23, 1]) ∧ (running.link 23).state = .idle ∧
      (asked running 10 [23]).Serves 10 0 (request 10 [23]) :=
  ⟨serves_asked ⟨rfl, rfl, rfl⟩ rfl rfl, by decide +kernel, by decide +kernel, by decide +kernel,
    serves_asked ⟨rfl, rfl, rfl⟩ rfl rfl, by decide +kernel, serves_asked ⟨rfl, rfl, rfl⟩ rfl rfl, by decide +kernel,
    serves_asked ⟨rfl, rfl, rfl⟩ rfl rfl⟩

theorem test_meets_PortRequests_relink :
    (asked (lost running) 11 [1]).Serves 11 0 (request 11 [1]) ∧ ((lost running).link 1).state = .lost ∧
      (request 11 [1]).payload.length = 1 ∧ byteOr (request 11 [1]).payload 0 = (1 : Port).val ∧
      (asked running 11 [23]).Serves 11 0 (request 11 [23]) ∧ (running.link 23).state ≠ .lost :=
  ⟨serves_asked ⟨rfl, rfl, rfl⟩ rfl rfl, by decide +kernel, rfl, by decide +kernel, serves_asked ⟨rfl, rfl, rfl⟩ rfl rfl,
    by decide +kernel⟩

/-! ### Events of a period start -/

theorem test_meets_PortEntersLost :
    (let s : State := { recovering .inhibit with
       links := ((running.links.set 1 { up with missCount := 2 }).set 2 { up with state := .linking, linkingCount := 63 }).set
         0 { up with missCount := 2 } }
     let u := s.openPeriod
     s.lines.resetN = true ∧ .links ∉ u.ps.taken ∧ 1 ∉ u.ps.judged ∧ (u.link 1).state = .up ∧
       u.ps.answered[(1 : Port).val] = false ∧ u.settings.missLimit ≤ (u.link 1).missCount + 1 ∧
       (u.link 2).state = .linking ∧ (u.link 2).tagSent.isSome = true ∧ 64 ≤ (u.link 2).linkingCount + 1 ∧
       (u.entry 2).role = .spare ∧ (u.entry 2).insertionTarget = none ∧ (u.entry 1).role = .isolating ∧
       u.mode = .run ∧ u.governingPolicy.blindAllowed = true ∧ (u.entry 0).role = .active ∧
       u.settings.missLimit ≤ (u.link 0).missCount + 1) ∧
    (let s : State := { recovering .inhibit with
       rsq := { (recovering .inhibit).rsq with nest := [{ context with policy := some ⟨true, true, false, 9, 8, 1⟩ }] } }
     s.openPeriod.governingPolicy.blindAllowed = false) ∧
    (let s : State := { isolating with links := isolating.links.set 2 { up with missCount := 2 } }
     let u := s.openPeriod
     (u.link 2).state = .up ∧ u.settings.missLimit ≤ (u.link 2).missCount + 1 ∧ (u.entry 2).role = .spare ∧
       (u.entry 2).insertionTarget.isSome = true ∧ u.rsq.stage = .isolate) := by decide +kernel

/-- R127: a port in LINKING enters LOST at the 64th period start without an accepted frame. -/
theorem test_port_lost :
    let s : State := { running with links := running.links.set 2 { up with state := .linking, linkingCount := 63 } }
    ((after (.portLost 2) s).link 2).state = .lost ∧ after (.portLost 0) s = s := by decide +kernel

theorem test_meets_StagesEndAtPeriodStart :
    (let s := { recovering .inhibit with rsq := { (recovering .inhibit).rsq with inhibitCount := 2 } }
     let u := s.openPeriod.prepare .sequencer
     s.lines.resetN = true ∧ .sequencer ∉ u.ps.taken ∧ u.mode = .run ∧ u.rsq.stage = .inhibit ∧ u.rsq.nest ≠ [] ∧
       u.rsq.gapCount + 1 < u.governingPolicy.gapBudget ∧ u.ps.inhibitEntered = false ∧
       u.settings.inhibitHold ≤ u.rsq.inhibitCount + 1) ∧
    (let s := { recovering .isolate with
       roster := running.roster.set 1 { active 1 with role := .isolating, bypassOrder := .closed, contact := .closed }
       bau := { running.bau with settleCount := 5 } }
     let u := s.openPeriod.prepare .sequencer
     .sequencer ∉ u.ps.taken ∧ u.mode = .run ∧ u.rsq.stage = .isolate ∧ u.rsq.nest ≠ [] ∧
       u.rsq.gapCount + 1 < u.governingPolicy.gapBudget ∧ u.ps.settleDone = true) ∧
    (let s := { recovering .align with ctu := { running.ctu with
       windowStart := some 0, ports := Vector.replicate 24 { CarrierPort.afterPin with aligned := true } } }
     let u := s.openPeriod.prepare .sequencer
     .sequencer ∉ u.ps.taken ∧ u.mode = .run ∧ u.rsq.stage = .align ∧
       (u.rsq.nest ≠ [] → u.rsq.gapCount + 1 < u.governingPolicy.gapBudget) ∧ u.ctu.windowStart.isSome = true ∧
       ∀ p, (u.entry p).inString = true → (u.cport p).aligned = true) ∧
    (let s := { recovering .awaitGrant with rsq := { (recovering .awaitGrant).rsq with grantPending := true } }
     let u := s.openPeriod.prepare .sequencer
     .sequencer ∉ u.ps.taken ∧ u.mode = .run ∧ u.rsq.stage = .awaitGrant ∧ u.rsq.grantPending = true) ∧
    (let u := (recovering .resume).openPeriod.prepare .sequencer
     .sequencer ∉ u.ps.taken ∧ u.mode = .run ∧ u.rsq.stage = .resume ∧ u.rsq.nest ≠ [] ∧
       u.rsq.resumeLength - 1 ≤ u.rsq.resumeIndex) := by decide +kernel

theorem test_meets_StagesEndAtPeriodStart_going :
    let base := recovering .inhibit
    ready.mode ≠ .run ∧ running.rsq.stage = .normal ∧ base.mode = .run ∧ base.ps.inhibitEntered = false ∧
      { base.ps with inhibitEntered := true }.inhibitEntered = true ∧
      base.rsq.inhibitCount + 1 < base.settings.inhibitHold ∧ base.rsq.nest ≠ [] ∧
      base.rsq.gapCount + 1 < base.governingPolicy.gapBudget ∧ (recovering .isolate).ps.settleDone = false ∧
      (recovering .awaitGrant).rsq.grantPending = false ∧ aligning.ctu.windowStart = some 0 ∧
      (aligning.entry 0).inString = true ∧ (aligning.cport 0).aligned = false ∧
      (let r : Sequencer := { (recovering .resume).rsq with resumeIndex := 2, resumeLength := 8 }
       r.stage = .resume ∧ r.resumeIndex < r.resumeLength) := by decide +kernel

/-- R48: RESUME period 3 of 8 stands at g = floor(1024·3/8). -/
theorem test_ramp_step :
    let s := recovering .resume
    let r : Sequencer := { s.rsq with resumeIndex := 2, resumeLength := 8 }
    (State.runStep { s with rsq := r } .sequencer).rsq.rampGain = 384 := by decide +kernel

/-- R30, R48: the period start that finds k equal to R enters NORMAL, with an episode open and with none. -/
theorem test_meets_ResumeEnds :
    let s : State := { recovering .resume with
      rsq := { (recovering .resume).rsq with resumeIndex := 8, resumeLength := 8 } }
    let u := s.openPeriod.prepare .sequencer
    .sequencer ∉ u.ps.taken ∧ u.mode = .run ∧ u.rsq.stage = .resume ∧ u.rsq.resumeLength ≤ u.rsq.resumeIndex ∧
      (after .resumeEnd s).rsq.stage = .normal ∧
      (after .resumeEnd { s with rsq := { s.rsq with nest := [] } }).log = s.log := by decide +kernel

/-- REMAP with the opening of the spare of port 2 confirmed, and port 0 deferred. -/
def remapping : State :=
  { recovering .remap with
    roster := (((recovering .remap).roster.set 2 { spare with
      insertionTarget := some 1, bypassOrder := .opened, contact := .opened })).set 0 { active 0 with deferred := true } }

theorem test_meets_RemapCompletes :
    let u := remapping.openPeriod.prepare .sequencer
    let r := u.rebuild
    remapping.lines.resetN = true ∧ .sequencer ∉ u.ps.taken ∧ u.mode = .run ∧ u.rsq.stage = .remap ∧
      u.rsq.nest ≠ [] ∧ u.rsq.gapCount + 1 < u.governingPolicy.gapBudget ∧
      (rebalLookup u.settings.nNom u.rebalActive r.deficits).isSome = true ∧
      (r.entry 0).role = .active ∧ (r.entry 0).deferred = true ∧
      u.episodePolicy = some ⟨true, true, true, 100, 8, 2⟩ ∧ u.rsq.nest.length < 2 ∧
      (∀ p, (r.entry p).deferred = true → (u.link p).state ≠ .lost) ∧ u.openingConfirmed 2 = true ∧
      (u.entry 1).role = .isolating ∧ (r.entry 2).role = .active ∧ (r.entry 2).position = some 1 := by decide +kernel

/-- The deferred cell of `remapping` under a policy that allows neither a blind wait nor a push. -/
theorem test_meets_RemapCompletes_trips :
    let policy : PolicyEntry := ⟨true, true, false, 100, 8, 1⟩
    let s : State := { remapping with rsq := { remapping.rsq with nest := [{ context with policy := some policy }] } }
    let u := s.openPeriod.prepare .sequencer
    let v := ({ s with links := s.links.set 0 { up with state := .lost } } : State).openPeriod.prepare .sequencer
    u.episodePolicy = some policy ∧ policy.maxNest ≤ u.rsq.nest.length ∧ (u.rebuild.entry 0).deferred = true ∧
      (u.link 0).state ≠ .lost ∧ v.episodePolicy = some policy ∧ (v.rebuild.entry 0).deferred = true ∧
      (v.link 0).state = .lost ∧ (after .remapCompletion s).log.records.map (fun r => r.kind) = [.nestLimit] ∧
      (after .remapCompletion { s with links := s.links.set 0 { up with state := .lost } }).log.records.map
        (fun r => r.kind) = [.linkLostNoBlind] := by decide +kernel

/-- The other two outcomes of REMAP completion: no valid entry, and no cell deferred. -/
theorem test_remap_outcomes :
    (let s : State := { remapping with rebalActive := State.reset.rebalActive }
     (after .remapCompletion s).mode = .tripped ∧ (after .remapCompletion s).tripLine = true) ∧
    (after .remapCompletion (recovering .remap)).rsq.stage = .align := by decide +kernel

theorem test_meets_AlignWindowCloses :
    let s : State := { recovering .align with
      rsq := { (recovering .align).rsq with nest := [] }
      ctu := { running.ctu with windowStart := some 0, counter := 15 } }
    let u := s.openPeriod.prepare .window
    s.lines.resetN = true ∧ .window ∉ u.ps.taken ∧ u.mode = .run ∧ u.rsq.stage = .align ∧
      u.ctu.windowStart = some (u.ctu.counter - BitVec.ofNat 32 u.settings.alignLimit) ∧
      ((List.finRange 24).filter (fun p => (u.entry p).inString && !(u.cport p).aligned)) = [0, 1, 8, 16] := by
  decide +kernel

theorem test_meets_CountsTripPart :
    (let s : State := { recovering .awaitGrant with rsq := { (recovering .awaitGrant).rsq with gapCount := 99 } }
     let u := s.openPeriod.prepare .sequencer
     s.lines.resetN = true ∧ .sequencer ∉ u.ps.taken ∧ u.mode = .run ∧ u.rsq.nest ≠ [] ∧ u.rsq.stage = .awaitGrant ∧
       u.rsq.grantPending = false ∧ u.governingPolicy.gapBudget ≤ u.rsq.gapCount + 1) ∧
    (let s : State := { running with cli := { running.cli with holdCount := 3, current := none } }
     let u := s.openPeriod.prepare .hold
     .hold ∉ u.ps.taken ∧ u.mode = .run ∧ u.cli.current = none ∧
       u.cli.holdCount + 1 = u.settings.refHoldLimit) := by decide +kernel

/-- An actuation in flight whose window closes at the next period start. -/
def failing (p : Port) (d : Order) : State :=
  { recovering .isolate with
    bau := { running.bau with queue := [⟨p, d, 0, some 0⟩] }, ctu := { running.ctu with counter := 39 } }

/-- The closing of port 1 and the gap count both run out at the next period start, after an ISOLATE period. -/
def runningOut : State :=
  { failing 1 .closed with rsq := { (failing 1 .closed).rsq with gapCount := 99 } }

theorem test_meets_CountsTripPart_meeting :
    let u := runningOut.openPeriod
    runningOut.lines.resetN = true ∧ .sequencer ∉ u.ps.taken ∧ .fail ∉ u.ps.taken ∧ u.mode = .run ∧
      u.rsq.stage = .isolate ∧ u.rsq.nest ≠ [] ∧ u.governingPolicy.gapBudget ≤ u.rsq.gapCount + 1 ∧
      u.bau.queue = [⟨1, .closed, 0, some 0⟩] ∧ u.settings.confirmLimit ≤ (u.ctu.counter - 0#32).toNat ∧
      (u.entry 1).role = .isolating ∧ (u.link 1).state ≠ .lost := by decide +kernel

/-- R50: of GAP_EXPIRED and BYPASS_FAIL at one period start either may be taken first, after an ISOLATE period too. -/
theorem test_gap_or_bypass_first :
    (after (.periodStart true [.sequencer]) runningOut).log.records.map (fun r => r.kind) = [.gapExpired] ∧
      (after (.periodStart true []) runningOut).log.records.map (fun r => r.kind) = [.bypassFail] := by decide +kernel

theorem test_meets_ActuationFails :
    (let u := (failing 1 .closed).openPeriod.prepare .fail
     (failing 1 .closed).lines.resetN = true ∧ .fail ∉ u.ps.taken ∧ u.bau.queue = [⟨1, .closed, 0, some 0⟩] ∧
       u.settings.confirmLimit ≤ (u.ctu.counter - 0).toNat ∧ (u.entry 1).role = .isolating ∧ u.mode = .run ∧
       (u.link 1).state ≠ .lost) ∧
    (let u := (failing 2 .opened).openPeriod.prepare .fail
     .fail ∉ u.ps.taken ∧ u.bau.queue = [⟨2, .opened, 0, some 0⟩] ∧
       u.settings.confirmLimit ≤ (u.ctu.counter - 0).toNat ∧ (u.entry 2).role = .spare) ∧
    (let u := (failing 0 .opened).openPeriod.prepare .fail
     .fail ∉ u.ps.taken ∧ u.bau.queue = [⟨0, .opened, 0, some 0⟩] ∧
       u.settings.confirmLimit ≤ (u.ctu.counter - 0).toNat ∧ (u.entry 0).role = .active) ∧
    (let s := after .actuationFailure { failing 2 .opened with
        roster := isolating.roster, rsq := isolating.rsq }
     s.ps.selectionDue = true ∧ s.rsq.stage = .isolate ∧ running.ps.selectionDue = false) := by decide +kernel

/-- R15: the opening of a selected spare fails in REMAP: the spare loses its target and no selection becomes due. -/
theorem test_spare_lost_in_remap :
    (let s := after .actuationFailure { failing 2 .opened with
        roster := isolating.roster, rsq := { isolating.rsq with stage := .remap } }
     (isolating.entry 2).insertionTarget.isSome = true ∧ (s.entry 2).insertionTarget = none ∧
       s.rsq.stage = .remap ∧ s.ps.selectionDue = false) := by decide +kernel

/-- R62, R63: a closing that fails trips the part; the window has not closed one period earlier. -/
theorem test_closing_fails :
    (after .actuationFailure (failing 1 .closed)).mode = .tripped ∧
      (let s : State := { failing 1 .closed with ctu := { running.ctu with counter := 38 } }
       after .actuationFailure s = s) := by decide +kernel

theorem test_meets_BlindDeemingCloses :
    let s : State := { recovering .isolate with
      links := running.links.set 1 { up with state := .lost }, ctu := { running.ctu with counter := 29 }
      bau := { running.bau with
        blindStart := running.bau.blindStart.set 1 (some 0), queue := [⟨1, .closed, 0, some 20⟩] } }
    let u := s.openPeriod.prepare .deem
    s.lines.resetN = true ∧ .deem ∉ u.ps.taken ∧ (u.entry 1).role = .isolating ∧ (u.link 1).state = .lost ∧
      u.episodePolicy = some ⟨true, true, true, 100, 8, 2⟩ ∧ (u.entry 1).blind = false ∧
      u.bau.blindStart[(1 : Port).val] = some 0 ∧ u.settings.blindWait ≤ (u.ctu.counter - 0).toNat ∧
      u.bau.queue = [⟨1, .closed, 0, some 20⟩] ∧ (after .blindDeeming s).bau.queue = [] := by decide +kernel

theorem test_meets_HeadEntryIssued :
    let s : State := { recovering .isolate with
      bau := { running.bau with queue := [⟨1, .closed, 0, none⟩], supply := ⟨false, false, true⟩ } }
    let u := (s.openPeriod.setSupply true).prepare .issue
    s.lines.resetN = true ∧ .issue ∉ u.ps.taken ∧ u.bau.queue = [⟨1, .closed, 0, none⟩] ∧
      u.bau.supply = ⟨false, true, true⟩ ∧ u.rsq.stage = .isolate ∧ u.mode = .run := by decide +kernel

/-- Nothing is issued with the supply NOT_OK, in RUN outside ISOLATE, with no entry, or with one in flight, which stays at
the head while its window is open. -/
theorem test_meets_HeadEntryIssued_not :
    (let s : State := { ready with bau := { ready.bau with queue := [⟨17, .closed, 0, none⟩] } }
     let u := (s.openPeriod.setSupply false).prepare .issue
     u.bau.supply.oldest = false ∧ u.bau.supply.middle = false ∧ u.mode ≠ .run) ∧
    (let u := (running.openPeriod.setSupply true).prepare .issue
     u.mode = .run ∧ u.rsq.stage ≠ .isolate ∧ u.bau.queue = []) ∧
    (let u := (isolating.openPeriod.setSupply true).prepare .issue
     u.bau.queue.head? = some ⟨1, .closed, 0, some 0⟩) ∧
    isolating.Settled ∧ isolating.QueueLaw ∧ isolating.GapLaw ∧ isolating.CarrierLaw ∧ isolating.bau.queue.head? = some ⟨1, .closed, 0, some 0⟩ ∧
      (⟨1, .closed, 0, some 0⟩ : Actuation) ∈ (after (.periodStart true []) isolating).bau.queue :=
  ⟨by decide +kernel, by decide +kernel, by decide +kernel, ⟨rfl, rfl, rfl⟩, ⟨by decide +kernel, by decide +kernel⟩,
    test_meets_StageLawKept_gap.1, test_meets_CarrierLawKept.1, rfl, by decide +kernel⟩

theorem test_meets_LeakAndPeriodMarks :
    (let s : State := { running with ssc := { running.ssc with leakCount := 63 } }
     let u := s.openPeriod.prepare .leak
     s.lines.resetN = true ∧ .leak ∉ u.ps.taken ∧ u.settings.leakInterval ≤ u.ssc.leakCount + 1) ∧
    (let s : State := { running with mga := { running.mga with periodMarks := ⟨true, true, false⟩ } }
     let u := s.openPeriod.prepare .commit
     .commit ∉ u.ps.taken ∧ u.rsq.stage = .normal ∧ u.mga.periodMarks.screen = true ∧
       (rebalLookup u.settings.nNom u.rebalStaged u.deficits).isNone = true) := by decide +kernel

/-! ### Arithmetic -/

theorem test_meets_RampAndComparePair :
    (1024 : Nat) ≤ 1024 ∧ 2 * (rampOut 1 512 * 1024 - 1 * (512 : Nat)).natAbs = 1024 ∧ (100 : Nat) ≤ 100 ∧
      (4000 : Nat) ≤ 4000 ∧ (-32767 : Int) ≤ -32767 ∧ (32767 : Int) ≤ 32767 := by decide +kernel

theorem test_meets_CarrierArithmetic :
    (1999 : Nat) < 2 * 1000 ∧ loadOf 1000 0 1000 = .load 1000 true ∧ loadOf 0 0 1000 = .load 0 false ∧
      -(2 * 1000 : Int) < -1999 ∧ (1999 : Int) < 2 * 1000 ∧ wrapError (-1999) 1000 = 1 ∧ trimOf (-9) 4 = -4 ∧
      trimOf 4 4 = 4 := by decide +kernel

end Sys2Proof.Tests
end

/-! ### The three output lines (R49, R164, R169) -/

namespace Sys2Proof.Machine.State

/-- The five gap stages of R46; NORMAL and RESUME are the others. -/
theorem inGapStage_iff (s : State) :
    s.inGapStage = true ↔ s.rsq.stage = .inhibit ∨ s.rsq.stage = .isolate ∨ s.rsq.stage = .remap ∨
      s.rsq.stage = .align ∨ s.rsq.stage = .awaitGrant := by
  unfold inGapStage
  cases s.rsq.stage <;> simp

theorem one_le_nestDepth_iff (s : State) : 1 ≤ s.nestDepth ↔ s.rsq.nest ≠ [] :=
  List.length_pos_iff

theorem brakeDemand_iff (s : State) : s.brakeDemand = true ↔ s.mode ≠ .run ∨ s.lines.resetN = false := by
  simp [brakeDemand]

theorem tripLine_iff (s : State) : s.tripLine = true ↔ s.mode = .tripped ∧ s.lines.resetN = true := by
  simp [tripLine]

theorem torqueGap_iff (s : State) :
    s.torqueGap = true ↔ s.mode = .run ∧ s.rsq.nest ≠ [] ∧ s.lines.resetN = true ∧
      (s.rsq.stage = .inhibit ∨ s.rsq.stage = .isolate ∨ s.rsq.stage = .remap ∨ s.rsq.stage = .align ∨
        s.rsq.stage = .awaitGrant) := by
  rw [← inGapStage_iff, ← one_le_nestDepth_iff]
  simp [torqueGap, and_assoc, and_left_comm, and_comm]

/-- A torque gap needs RUN with RESET_N high, and each reason for BRAKE_DEMAND denies one of the two. -/
theorem not_brakeDemand_and_torqueGap (s : State) : ¬(s.brakeDemand = true ∧ s.torqueGap = true) := by
  rintro ⟨hbrake, hgap⟩
  obtain ⟨hrun, -, hhigh, -⟩ := s.torqueGap_iff.mp hgap
  rcases s.brakeDemand_iff.mp hbrake with hmode | hlow
  · exact hmode hrun
  · simp [hhigh] at hlow

/-- Settles O19: one equivalence per line, and BRAKE_DEMAND and TORQUE_GAP exclude each other. -/
theorem outputLinesFollowMode : Obligations.OutputLinesFollowMode := fun s =>
  ⟨s.brakeDemand_iff, s.tripLine_iff, s.torqueGap_iff, s.not_brakeDemand_and_torqueGap⟩

end Sys2Proof.Machine.State

/-! ### The rounding of a quotient, the ramp and the compare pair (R82, R84) -/

namespace Sys2Proof.Machine

theorem natAbs_roundDiv (n : Int) (d : Nat) : (roundDiv n d).natAbs = (2 * n.natAbs + d) / (2 * d) := by
  rw [roundDiv, Int.natAbs_mul, Int.natAbs_natCast]
  rcases eq_or_ne n 0 with rfl | hn
  · rcases Nat.eq_zero_or_pos d with rfl | hd
    · simp
    · rw [Int.sign_zero, Int.natAbs_zero, Nat.zero_mul, Nat.div_eq_of_lt (by omega)]
  · rw [Int.natAbs_sign_of_ne_zero hn, Nat.one_mul]

theorem roundDiv_eq_sign_mul (n : Int) (d : Nat) : roundDiv n d = n.sign * (roundDiv n d).natAbs := by
  rw [natAbs_roundDiv, roundDiv]

/-- The rounded magnitude lies within half a divisor of the exact one; the upper end is reached, the lower is not. -/
theorem natAbs_roundDiv_bounds (n : Int) {d : Nat} (hd : 0 < d) :
    2 * ((roundDiv n d).natAbs * d) ≤ 2 * n.natAbs + d ∧ 2 * n.natAbs < 2 * ((roundDiv n d).natAbs * d) + d := by
  have hlow := Nat.div_mul_le_self (2 * n.natAbs + d) (2 * d)
  have hhigh := Nat.lt_div_mul_add (a := 2 * n.natAbs + d) (b := 2 * d) (by omega)
  rw [← natAbs_roundDiv, Nat.mul_left_comm] at hlow hhigh
  omega

/-- A quotient and its rounding have one sign, so their distance is that of their magnitudes. -/
theorem natAbs_roundDiv_mul_sub (n : Int) (d : Nat) :
    (roundDiv n d * d - n).natAbs = (((roundDiv n d).natAbs * d : Nat) - (n.natAbs : Int)).natAbs := by
  rcases eq_or_ne n 0 with rfl | hn
  · simp [roundDiv]
  · calc (roundDiv n d * d - n).natAbs
        = (n.sign * (((roundDiv n d).natAbs * d : Nat) - (n.natAbs : Int))).natAbs := by
          rw [mul_sub, Int.sign_mul_natAbs, Nat.cast_mul, ← mul_assoc, ← roundDiv_eq_sign_mul]
      _ = _ := by rw [Int.natAbs_mul, Int.natAbs_sign_of_ne_zero hn, Nat.one_mul]

theorem roundDiv_nearest (n : Int) {d : Nat} (hd : 0 < d) : 2 * (roundDiv n d * d - n).natAbs ≤ d := by
  rw [natAbs_roundDiv_mul_sub]
  have hbounds := natAbs_roundDiv_bounds n hd
  omega

theorem roundDiv_half_away (n : Int) {d : Nat} (hd : 0 < d) (htie : 2 * (roundDiv n d * d - n).natAbs = d) :
    n.natAbs < (roundDiv n d * d).natAbs := by
  rw [natAbs_roundDiv_mul_sub] at htie
  rw [Int.natAbs_mul, Int.natAbs_natCast]
  have hbounds := natAbs_roundDiv_bounds n hd
  omega

theorem roundDiv_mul_self (n : Int) {d : Nat} (hd : 0 < d) : roundDiv (n * d) d = n := by
  have hdist := roundDiv_nearest (n * d) hd
  rw [← Int.sub_mul, Int.natAbs_mul, Int.natAbs_natCast] at hdist
  have hzero : (roundDiv (n * d) d - n).natAbs = 0 := by
    by_contra hne
    have := Nat.le_mul_of_pos_left d (Nat.pos_of_ne_zero hne)
    omega
  omega

/-- R82: a gain of at most 1024 keeps the ramped output within the clamped one. -/
theorem natAbs_rampOut_le (y : Int) {g : Nat} (hg : g ≤ 1024) : (rampOut y g).natAbs ≤ y.natAbs := by
  obtain ⟨hbound, -⟩ := natAbs_roundDiv_bounds (y * g) (d := 1024) (by decide)
  have hscaled : (y * g).natAbs ≤ y.natAbs * 1024 := by
    rw [Int.natAbs_mul, Int.natAbs_natCast]
    exact Nat.mul_le_mul_left _ hg
  rw [rampOut]
  omega

theorem rampOut_full (y : Int) : rampOut y 1024 = y := roundDiv_mul_self y (by decide)

theorem pairOf_cL_cast (p : Nat) {m : Int} (hm : -32767 ≤ m) :
    ((pairOf p m).cL : Int) = (p * (m + 32768) + 32768) / 65536 := by
  have hprod : 0 ≤ (p : Int) * (m + 32768) := mul_nonneg (by omega) (by omega)
  exact Int.toNat_of_nonneg (by omega)

theorem pairOf_cL_mono (p : Nat) {m m' : Int} (h : m ≤ m') : (pairOf p m).cL ≤ (pairOf p m').cL := by
  have hprod : (p : Int) * (m + 32768) ≤ p * (m' + 32768) := mul_le_mul_of_nonneg_left (by omega) (by omega)
  exact Int.toNat_le_toNat (Int.ediv_le_ediv (by decide) (by omega))

/-- The greatest index gives the whole half-period: the offset of half a step makes good the missing P/65536. -/
theorem pairOf_cL_max {p : Nat} (hp : p ≤ 4000) : (pairOf p 32767).cL = p := by
  have := pairOf_cL_cast p (m := 32767) (by decide)
  omega

theorem pairOf_cL_min {p : Nat} (hp : p ≤ 4000) : (pairOf p (-32767)).cL = 0 := by
  have := pairOf_cL_cast p (m := -32767) (by decide)
  omega

theorem pairOf_cL_le {p : Nat} (hp : p ≤ 4000) {m : Int} (hm : m ≤ 32767) : (pairOf p m).cL ≤ p :=
  (pairOf_cL_mono p hm).trans_eq (pairOf_cL_max hp)

theorem pairOf_cR (p : Nat) (m : Int) : (pairOf p m).cR = p - (pairOf p m).cL := rfl

theorem pairOf_zero (p : Nat) : pairOf p 0 = neutralPair p := by
  have hcL : (pairOf p 0).cL = (neutralPair p).cL := by
    have := pairOf_cL_cast p (m := 0) (by decide)
    simp only [neutralPair]
    omega
  exact congrArg (fun c => Pair.mk c (p - c)) hcL

/-- Settles O59: the ramp is the rounded quotient by 1024, and the pair's range follows from monotony and its value at
the greatest index. -/
theorem rampAndComparePair : Obligations.RampAndComparePair := by
  refine ⟨fun n d hd => ⟨roundDiv_nearest n hd, roundDiv_half_away n hd⟩, fun y g => ?_, fun p m _ hp hlow hhigh => ?_⟩
  · exact ⟨roundDiv_nearest (y * g) (by decide), roundDiv_half_away (y * g) (d := 1024) (by decide),
      natAbs_rampOut_le y, rampOut_full y⟩
  · have hle := pairOf_cL_le hp hhigh
    refine ⟨pairOf_cL_cast p hlow, hle, ?_, fun m' hmm' _ => pairOf_cL_mono p hmm', ?_, pairOf_cL_min hp,
      pairOf_zero p⟩
    · rw [pairOf_cR, Nat.add_sub_cancel' hle]
    · rw [pairOf_cR, pairOf_cL_max hp, Nat.sub_self]

end Sys2Proof.Machine

/-! ### The arrival of a REF frame (R47, R140 to R143) -/

namespace Sys2Proof.Machine

/-- Between two period starts, with no latch waiting, there is nothing to finish before an event. -/
theorem State.Settled.finishPeriod_eq {s : State} (h : s.Settled) : s.finishPeriod = s := by
  rw [← s.withHanded_nil h.taken, State.finishPeriod, if_neg (by simp [h.between]), State.takeHanded_withHanded,
    List.foldl_nil]

/-- On a settled part an event between period starts takes place at once. -/
theorem State.Settled.between_eq {s : State} (h : s.Settled) (f : State → State) : s.between f = f s := by
  rw [State.between, State.unlessHeld, h.running, if_pos rfl, h.finishPeriod_eq]

/-- A flag set with one flag more, where a condition holds. -/
def withFlagIf (set : BitVec 24) (c : Bool) (f : Flag) : BitVec 24 := if c then withFlag set f else set

theorem hasFlag_withFlagIf (set : BitVec 24) (c : Bool) (f x : Flag) :
    hasFlag (withFlagIf set c f) x = true ↔ hasFlag set x = true ∨ (x = f ∧ c = true) := by
  cases c <;> simp [withFlagIf, hasFlag_withFlag, eq_comm (a := x)]

/-- Code 7 alone is not a motion state (R142). -/
theorem motionOf_eq_none_iff (code : BitVec 3) : motionOf code = none ↔ code = 7#3 := by
  revert code
  decide

namespace State

variable (s : State)

theorem raiseIf_eq (c : Bool) (f : Flag) :
    s.raiseIf c f = s.updCli (fun k => { k with flags := withFlagIf k.flags c f }) := by
  cases c <;> rfl

theorem grantFresh_iff (token : Byte) :
    s.grantFresh token = true ↔ s.rsq.stage = .awaitGrant ∧ token = s.rsq.restartNumber.setWidth 8 := by
  simp [grantFresh]

/-- R142: a code that names no motion state leaves the one held. -/
theorem takeMotion_eq (code : BitVec 3) :
    s.takeMotion code = (s.updCli (fun k => { k with motion := (motionOf code).getD k.motion })).raiseIf
      (motionOf code).isNone .motionInvalid := by
  rw [takeMotion]
  cases motionOf code <;> rfl

/-- R47, R143: a fresh grant becomes the grant pending, which no frame clears; a stale one only raises its flag. -/
theorem takeGrant_eq (grant : Bool) (token : Byte) :
    s.takeGrant grant token =
      (s.updRsq (fun r => { r with grantPending := r.grantPending || (grant && s.grantFresh token) })).raiseIf
        (grant && !s.grantFresh token) .grantStale := by
  cases grant with
  | false => simp [takeGrant, raiseIf, updRsq]
  | true => cases hfresh : s.grantFresh token <;> simp [takeGrant, hfresh, raiseIf, updRsq]

/-- The event flags after an accepted frame: a second reference of the period, motion code 7, a stale grant. -/
def flagsOnAccept (f : RefFrame) : BitVec 24 :=
  let overrun := withFlagIf s.cli.flags s.cli.current.isSome .refOverrun
  let invalid := withFlagIf overrun (motionOf f.motionCode).isNone .motionInvalid
  withFlagIf invalid (f.grant && !s.grantFresh f.token) .grantStale

theorem hasFlag_flagsOnAccept (f : RefFrame) (x : Flag) :
    hasFlag (s.flagsOnAccept f) x = true ↔ hasFlag s.cli.flags x = true ∨
      (x = .refOverrun ∧ s.cli.current.isSome = true) ∨ (x = .motionInvalid ∧ f.motionCode = 7#3) ∨
      (x = .grantStale ∧ f.grant = true ∧
        ¬(s.rsq.stage = .awaitGrant ∧ f.token = s.rsq.restartNumber.setWidth 8)) := by
  simp only [flagsOnAccept, hasFlag_withFlagIf, Option.isNone_iff_eq_none, motionOf_eq_none_iff, Bool.and_eq_true,
    Bool.not_eq_true', ← grantFresh_iff, Bool.not_eq_true, or_assoc]

/-- R140: a frame that repeats the last accepted sequence only raises its flag. -/
theorem receiveRef_duplicate {f : RefFrame} (h : s.cli.lastSeq = some f.seq) :
    s.receiveRef f = s.raise .refDuplicate :=
  if_pos h

/-- R140 to R143: the whole next state of an accepted frame. -/
theorem receiveRef_accepted {f : RefFrame} (h : s.cli.lastSeq ≠ some f.seq) :
    s.receiveRef f =
      { s with
        cli := { s.cli with
          lastSeq := some f.seq, current := some ⟨f.vA, f.vB, f.vC⟩
          motion := (motionOf f.motionCode).getD s.cli.motion, flags := s.flagsOnAccept f }
        rsq := { s.rsq with grantPending := s.rsq.grantPending || (f.grant && s.grantFresh f.token) } } := by
  rw [receiveRef, if_neg h, takeGrant_eq, takeMotion_eq, takeReference]
  simp only [raiseIf_eq, updCli, updRsq, grantFresh, flagsOnAccept]

end State

/-- Settles O24: on a settled part the arrival is `receiveRef`, which either finds a duplicate or accepts the frame. -/
theorem refFrameAccepted : Obligations.RefFrameAccepted := by
  intro f s hs
  have hexec : exec (.refFrame f) s = .next (s.receiveRef f) := congrArg Host.Outcome.next (hs.between_eq _)
  refine ⟨fun hdup => ?_, fun hnew => ⟨s.receiveRef f, hexec, ?_⟩⟩
  · rw [hexec, s.receiveRef_duplicate hdup]
    rfl
  · rw [s.receiveRef_accepted hnew]
    refine ⟨rfl, ?_, ?_, ?_, ?_, ?_, ?_, ?_, ?_, fun hfresh => ?_, fun hnot => ?_, s.hasFlag_flagsOnAccept f⟩
    iterate 8 exact fun hcode => by rw [hcode]; rfl
    · obtain ⟨hgrant, hjudged⟩ := hfresh
      simp [hgrant, (s.grantFresh_iff _).mpr hjudged]
    · have hnone : (f.grant && s.grantFresh f.token) = false := by
        simpa [← s.grantFresh_iff] using hnot
      simp [hnone]

end Sys2Proof.Machine

/-! ### What the blocks' operations keep, every step of a period start keeps -/

namespace Sys2Proof.Machine

/-- A property kept by what a latch, a trip and the loss of a cell are made of. -/
structure CellKept (P : State → Prop) : Prop where
  record : ∀ s f, P s → P (s.updPs f)
  raise : ∀ s f, P s → P (s.raise f)
  trip : ∀ s r, P s → P (s.requestTrip r)
  effect : ∀ s p, s.mode = .run → P s → P (s.latchEffect p).1
  count : ∀ s l m st depth, P s → P (s.countLatch l m st depth)
  outside : ∀ s l, s.mode ≠ .run → P s → P (s.latchOutsideRun l)
  freed : ∀ s p, P s → P (s.deselect p).reselect

/-- A property kept, with these, by the counting and the loss of a port. -/
structure LatchKept (P : State → Prop) : Prop extends CellKept P where
  countPort : ∀ s p, P s → P (s.countPort p)
  cutPort : ∀ s p, P s → P ((((s.updLink p (Link.toLost p)).raise .linkLost).updEntry p
    (fun e => { e with contact := .unknown })).dropWaiting p)

/-- What each element of a list keeps, the whole list does. -/
theorem foldl_keeps {α : Type} {P : State → Prop} {f : State → α → State} (hf : ∀ s a, P s → P (f s a)) (l : List α)
    {s : State} (h : P s) : P (l.foldl f s) := by
  induction l generalizing s with
  | nil => exact h
  | cons a l ih => exact ih (hf s a h)

namespace CellKept

variable {P : State → Prop} (k : CellKept P) {s : State}
include k

theorem acceptLatch (hm : s.mode = .run) (h : P s) (l : Latch) : P (s.acceptLatch l) := by
  have hcount (m st depth) := k.count _ l m st depth (k.effect s l.port hm h)
  simp only [State.acceptLatch]
  split
  · exact h
  · split
    · exact k.trip _ _ (hcount _ _ _)
    · exact hcount _ _ _

theorem takeLatch (h : P s) (l : Latch) : P (s.takeLatch l) := by
  simp only [State.takeLatch]
  split
  · exact k.acceptLatch ‹_› h l
  · exact k.outside s l ‹_› h

theorem failAlign (h : P s) (p : Port) : P (s.failAlign p) := by
  simp only [State.failAlign]
  split
  · exact k.acceptLatch ‹_› h _
  · exact h

theorem windowStep (h : P s) : P s.windowStep := by
  refine foldl_keeps (P := P) (f := State.failAlign) (fun _ p h => k.failAlign h p) _ ?_
  split
  · exact h
  · exact k.raise s _ h

theorem loseCell (h : P s) (p : Port) : P (s.loseCell p) := by
  simp only [State.loseCell, State.loseIsolating]
  repeat' split
  all_goals first
    | with_reducible exact h
    | with_reducible exact k.freed s p h
    | with_reducible exact k.takeLatch h _
    | with_reducible exact k.trip s _ h

end CellKept

namespace LatchKept

variable {P : State → Prop} (k : LatchKept P) {s : State}
include k

theorem judgePort (h : P s) (p : Port) : P (s.judgePort p) := by
  have hcounted := k.record _ (fun q => { q with judged := p :: q.judged }) (k.countPort s p h)
  simp only [State.judgePort]
  split
  · exact k.loseCell (k.cutPort _ p hcounted) p
  · exact hcounted

theorem linksStep (h : P s) : P s.linksStep := foldl_keeps (P := P) (f := State.judgePort) (fun _ p h => k.judgePort h p) _ h

end LatchKept

/-- A property that each block's share of a period start keeps. -/
structure BlockKept (P : State → Prop) : Prop extends LatchKept P where
  supply : ∀ s, P s → P s.supplyStep
  holdCount : ∀ s n, P s → P (s.updCli (fun c => { c with holdCount := n }))
  reference : ∀ s, P s → P s.referenceStep
  retry : ∀ s p, P s → P (s.setRetry p true)
  dropHead : ∀ s, P s → P s.dropHead
  openFailed : ∀ s p, P s → P (s.openFailed p)
  select : ∀ s, P s → P s.selectStep
  deem : ∀ s p, P s → P (s.deemClosed p)
  gap : ∀ s, s.mode = .run → P s → P s.gapStep
  progress : ∀ s, s.mode = .run → P s → P s.stageProgress
  reconcile : ∀ s, P s → P s.reconcileStep
  settle : ∀ s, P s → P s.settleStep
  leak : ∀ s, P s → P s.leakStep
  commit : ∀ s, P s → P s.commitStep
  compute : ∀ s, P s → P s.computeStep
  issue : ∀ s, P s → P s.issueStep
  plan : ∀ s, P s → P s.planStep
  compose : ∀ s, P s → P s.composeStep

namespace BlockKept

variable {P : State → Prop} (k : BlockKept P) {s : State}
include k

theorem holdStep (h : P s) : P s.holdStep := by
  have hcounted := k.holdCount s s.holdAfter h
  simp only [State.holdStep]
  split
  · exact k.trip _ _ hcounted
  · exact hcounted

theorem closeFailed (h : P s) (p : Port) : P (s.closeFailed p) := by
  have hraised := k.raise s .bypassFail h
  simp only [State.closeFailed]
  split
  · exact k.trip _ _ hraised
  · exact hraised

theorem failStep (h : P s) : P s.failStep := by
  simp only [State.failStep]
  repeat' split
  · exact k.record _ _ (k.dropHead _ (k.closeFailed (k.retry s _ h) _))
  · exact k.openFailed _ _ (k.dropHead _ (k.retry s _ h))
  all_goals exact h

theorem sequencerStep (h : P s) : P s.sequencerStep := by
  simp only [State.sequencerStep]
  repeat' split
  · exact k.trip _ _ (k.gap s ‹_› h)
  · exact k.progress _ (by simpa using ‹s.mode = .run›) (k.gap s ‹_› h)
  · exact h

theorem runStep (h : P s) (x : PsStep) : P (s.runStep x) := by
  cases x
  case supply => exact k.supply s h
  case hold => exact k.holdStep h
  case reference => exact k.reference s h
  case fail => exact k.failStep h
  case select => exact k.select s h
  case deem => exact foldl_keeps (P := P) (f := State.deemClosed) k.deem _ h
  case sequencer => exact k.sequencerStep h
  case reconcile => exact k.reconcile s h
  case settle => exact k.settle s h
  case links => exact k.linksStep h
  case window => exact k.windowStep h
  case leak => exact k.leak s h
  case commit => exact k.commit s h
  case compute => exact k.compute s h
  case issue => exact k.issue s h
  case plan => exact k.plan s h
  case compose => exact k.compose s h

/-- With the bookkeeping around the steps, a whole period start keeps it. -/
theorem periodKept (opening : ∀ s, P s → P s.enterPeriod) (replies : ∀ s, P s → P s.replyEnds)
    (supply : ∀ s ok, P s → P (s.setSupply ok))
    (handed : ∀ s h, P s → P (s.updSsc (fun c => { c with handed := h }))) : PeriodKept P where
  record := k.record
  run _ x h := k.runStep h x
  opening := opening
  replies := replies
  supply := supply
  judge _ p h := k.judgePort h p
  latch _ l h := k.takeLatch h l
  handed := handed

end BlockKept

/-- A property kept by what the acceptance and the screening of a status frame are made of. -/
structure FrameKept (P : State → Prop) : Prop extends LatchKept P where
  link : ∀ s p f, P s → P (s.updLink p f)
  status : ∀ s p f, P s → P (s.recordStatus p f)
  confirm : ∀ s p c, P s → P (s.confirmContact p c)
  capture : ∀ s p c, P s → P (s.takeCapture p c)
  hit : ∀ s i, P s → P (s.countHit i)
  note : ∀ s p, P s → P (s.noteWord p)
  bucket : ∀ s p n, P s → P (s.updEntry p (fun e => { e with clipBucket := n }))
  zero : ∀ s p, P s → P (s.urgentZero p)
  write : ∀ s e, P s → P (s.writeLog e)
  handed : ∀ s h, P s → P (s.updSsc (fun c => { c with handed := h }))

namespace FrameKept

variable {P : State → Prop} (k : FrameKept P) {s : State}
include k

theorem handLatch (h : P s) (l : Latch) (late : Bool) : P (s.handLatch l late) := by
  simp only [State.handLatch]
  split
  · exact k.handed s _ h
  · exact k.takeLatch h l

theorem clipWord (h : P s) (p : Port) (w : Half) (i : Fin 16) (late : Bool) : P (s.clipWord p w i late) := by
  have hfilled (n) := k.bucket _ p n (k.raise s .clip h)
  simp only [State.clipWord]
  repeat' split
  · exact k.handLatch (hfilled 0) _ _
  · exact k.zero _ _ (hfilled _)
  · exact hfilled _

theorem tripWord (h : P s) (p : Port) (w : Half) (i : Fin 16) : P (s.tripWord p w i) := by
  have hraised := k.raise s .tripCause h
  simp only [State.tripWord]
  split
  · exact k.trip _ _ hraised
  · exact k.write _ _ hraised

theorem screenWord (h : P s) (p : Port) (w : Half) (late : Bool) : P (s.screenWord p w late) := by
  simp only [State.screenWord]
  repeat' split
  · rename_i i _
    have hhit := k.hit s i h
    cases (s.screenActive[i.val]).action
    case pass => exact hhit
    case note => exact k.note _ p hhit
    case clip => exact k.clipWord hhit p w i late
    case latch => exact k.handLatch hhit _ late
    case trip => exact k.tripWord hhit p w i
  all_goals exact h

theorem receiveSts (h : P s) (p : Port) (bytes : List Byte) (late : Bool) : P (s.receiveSts p bytes late) := by
  simp only [State.receiveSts]
  split
  case h_5 f _ =>
    exact k.screenWord (k.capture _ p _ (k.confirm _ p _ (k.status _ p f (k.link s p _ h)))) p f.word late
  all_goals exact k.link s p _ h

end FrameKept

end Sys2Proof.Machine

/-! ### The fault log (R172) -/

namespace Sys2Proof.Machine

/-- The records of a list are numbered upwards without a gap, the last by the number before `next`. -/
def NumberedTo (next : Half) (l : List LogRecord) : Prop :=
  l.map (fun r => r.sequence) = (List.range l.length).map (fun i => next - BitVec.ofNat 16 (l.length - i))

theorem NumberedTo.snoc {next : Half} {l : List LogRecord} (h : NumberedTo next l) {r : LogRecord}
    (hr : r.sequence = next) : NumberedTo (next + 1) (l ++ [r]) := by
  have hone (i : Nat) (hi : i < l.length) :
      next - BitVec.ofNat 16 (l.length - i) = next + 1 - BitVec.ofNat 16 (l.length + 1 - i) := by
    rw [show l.length + 1 - i = (l.length - i) + 1 by omega, BitVec.ofNat_add]
    exact (add_sub_add_right_eq_sub next _ 1).symm
  unfold NumberedTo at *
  rw [List.map_append, h, List.length_append, List.length_singleton, List.range_succ, List.map_append]
  refine congrArg₂ (· ++ ·) (List.map_congr_left fun i hi => hone i (List.mem_range.mp hi)) ?_
  simp [hr]

theorem NumberedTo.drop {next : Half} {l : List LogRecord} (h : NumberedTo next l) (k : Nat) :
    NumberedTo next (l.drop k) := by
  unfold NumberedTo at *
  rw [List.map_drop, h, List.length_drop]
  refine List.ext_getElem (by simp) fun i hi _ => ?_
  simp only [List.length_drop, List.length_map, List.length_range] at hi
  simp only [List.getElem_drop, List.getElem_map, List.getElem_range]
  rw [show l.length - (k + i) = l.length - k - i by omega]

namespace State

variable {s t : State}

theorem logLaw_iff : s.LogLaw ↔ s.log.records.length ≤ 16 ∧ NumberedTo s.log.next s.log.records :=
  ⟨fun h => ⟨h.size, h.numbers⟩, fun h => ⟨h.1, h.2⟩⟩

theorem LogLaw.congr (h : s.LogLaw) (hl : t.log = s.log) : t.LogLaw := by
  rw [logLaw_iff, hl]
  exact logLaw_iff.mp h

theorem writeLog_log (s : State) (e : LogEntry) :
    (s.writeLog e).log = { next := s.log.next + 1, records := keepSixteen (s.log.records ++ [s.recordOf e]) } := rfl

/-- One record more, with the next number, and the ring keeps the sixteen newest. -/
theorem LogLaw.appended (h : s.LogLaw) {r : LogRecord} (hr : r.sequence = s.log.next)
    (hl : t.log = { next := s.log.next + 1, records := keepSixteen (s.log.records ++ [r]) }) : t.LogLaw := by
  obtain ⟨-, hnumbers⟩ := logLaw_iff.mp h
  rw [logLaw_iff, hl]
  exact ⟨by simp only [keepSixteen, List.length_drop]; omega, (hnumbers.snoc hr).drop _⟩

theorem LogLaw.writeLog (h : s.LogLaw) (e : LogEntry) : (s.writeLog e).LogLaw := h.appended rfl (s.writeLog_log e)

/-- What a trip request hands to the Fault Log (R166). -/
def tripEntry (s : State) (r : TripRequest) : LogEntry :=
  { s.entryNow r.cause r.port with word := r.word, deficits := r.deficits }

theorem requestTrip_of_run (hm : s.mode = .run) (r : TripRequest) :
    s.requestTrip r = (s.writeLog (s.tripEntry r)).departRun .tripped := if_pos hm

theorem requestTrip_of_not_run (hm : s.mode ≠ .run) (r : TripRequest) : s.requestTrip r = s := if_neg hm

theorem requestTrip_log (hm : s.mode = .run) (r : TripRequest) :
    (s.requestTrip r).log =
      { next := s.log.next + 1, records := keepSixteen (s.log.records ++ [s.recordOf (s.tripEntry r)]) } := by
  simp [requestTrip_of_run hm, writeLog_log]

theorem LogLaw.requestTrip (h : s.LogLaw) (r : TripRequest) : (s.requestTrip r).LogLaw := by
  by_cases hm : s.mode = .run
  · exact h.appended rfl (requestTrip_log hm r)
  · rwa [requestTrip_of_not_run hm]

theorem LogLaw.countLatch (h : s.LogLaw) (l : Latch) (m : Mode) (st : Stage) (depth : Nat) :
    (s.countLatch l m st depth).LogLaw := by
  refine LogLaw.writeLog ?_ _
  exact h.congr rfl

theorem LogLaw.latchOutsideRun (h : s.LogLaw) (l : Latch) : (s.latchOutsideRun l).LogLaw := by
  simp only [State.latchOutsideRun]
  split
  case h_1 | h_2 => exact LogLaw.countLatch (h.congr (by simp)) _ _ _ _
  all_goals exact h

theorem LogLaw.openFailed (h : s.LogLaw) (p : Port) : (s.openFailed p).LogLaw := by
  simp only [State.openFailed]
  repeat' split
  · exact h.appended (r := s.recordOf (s.entryNow .spareOpenFail (some p))) rfl rfl
  all_goals exact h.congr (by simp)

theorem LogLaw.stageProgress (h : s.LogLaw) : s.stageProgress.LogLaw := by
  have hrebuilt : s.rebuild.applyRecovery.LogLaw := h.congr (by simp)
  simp only [State.stageProgress, inhibitProgress, resumeProgress, endResume, remapCompletion, acceptDeferred]
  repeat' split
  all_goals first
    | with_reducible exact h
    | with_reducible exact hrebuilt.requestTrip _
    | with_reducible exact LogLaw.requestTrip (hrebuilt.congr (by simp)) _
    | exact h.appended rfl rfl
    | exact h.congr (by simp [enterIsolate, enterAlign])

theorem logLaw_blockKept : BlockKept LogLaw := by
  constructor
  case toLatchKept =>
    refine ⟨⟨?record, ?raise, ?trip, ?effect, ?count, ?outside, ?freed⟩, ?countPort, ?cutPort⟩
    case trip => exact fun _ r h => h.requestTrip r
    case count => exact fun _ l m st depth h => h.countLatch l m st depth
    case outside => exact fun _ l _ h => h.latchOutsideRun l
    all_goals
      intros
      exact LogLaw.congr ‹_› (by simp)
  case openFailed => exact fun _ p h => h.openFailed p
  case progress => exact fun _ _ h => h.stageProgress
  all_goals
    intros
    exact LogLaw.congr ‹_› (by simp)

theorem logLaw_frameKept : FrameKept LogLaw := by
  constructor
  case toLatchKept => exact logLaw_blockKept.toLatchKept
  case write => exact fun _ e h => h.writeLog e
  all_goals
    intros
    exact LogLaw.congr ‹_› (by simp)

theorem logLaw_periodKept : PeriodKept LogLaw :=
  logLaw_blockKept.periodKept (fun _ h => h.congr (by simp)) (fun _ h => h.congr (by simp))
    (fun _ _ h => h.congr (by simp)) (fun _ _ h => h.congr rfl)

/-- Both resets of the pins leave an empty log. -/
theorem LogLaw.of_empty (hl : s.log = ⟨0, []⟩) : s.LogLaw := by
  rw [logLaw_iff, hl]
  exact ⟨by simp, rfl⟩

/-- The fall of SAFETY_STOP_N writes one record, but in SAFE_STOP (R168). -/
theorem fallSafety_log (hm : s.mode ≠ .safeStop) :
    s.fallSafety.log = { next := s.log.next + 1,
                         records := keepSixteen (s.log.records ++ [s.recordOf (s.entryNow .safetyStop none)]) } := by
  simp only [State.fallSafety]
  split
  case h_4 => contradiction
  all_goals
    simp [writeLog_log]
    rfl

theorem LogLaw.fallSafety (h : s.LogLaw) : s.fallSafety.LogLaw := by
  by_cases hm : s.mode = .safeStop
  · exact h.congr (by simp [State.fallSafety, hm])
  · exact h.appended rfl (fallSafety_log hm)

theorem logLaw_commandKept : CommandKept LogLaw := by
  constructor
  case period => exact logLaw_periodKept
  case pinReset | riseReset => exact fun _ _ => .of_empty rfl
  case fall => exact fun _ h => h.fallSafety
  case sts => exact fun _ p bytes late h => logLaw_frameKept.receiveSts h p bytes late
  all_goals
    intros
    exact LogLaw.congr ‹_› (by simp [setSafety, badFrame])

end State

/-- Settles O9: the log is changed by writing one record and by the resets of the pins alone. -/
theorem logLawKept : Obligations.LogLawKept :=
  fun _ _ h hstep => State.logLaw_commandKept.step (fun _ _ h => h.congr rfl) h hstep

end Sys2Proof.Machine

/-! ### The master carrier and the configuration record (R93, R95, R157) -/

namespace Sys2Proof.Machine

/-- The master carrier's own values: the position, P and the bases in force, and the period counter. -/
def Carrier.clock (c : Carrier) : Nat × Nat × Tri Nat × Period := (c.position, c.pInForce, c.bases, c.counter)

@[simp] theorem Carrier.clock_of_windowStart (c : Carrier) (w : Option Period) :
    Carrier.clock { c with windowStart := w } = c.clock := rfl

@[simp] theorem Carrier.clock_of_ports (c : Carrier) (p : Vector CarrierPort 24) :
    Carrier.clock { c with ports := p } = c.clock := rfl

@[simp] theorem Carrier.clock_of_plan (c : Carrier) (p : Vector CarrierPort 24) (w : Option Period) :
    Carrier.clock { c with ports := p, windowStart := w } = c.clock := rfl

theorem Carrier.clock_eq_iff {c d : Carrier} : c.clock = d.clock ↔
    c.position = d.position ∧ c.pInForce = d.pInForce ∧ c.bases = d.bases ∧ c.counter = d.counter := by
  simp [Carrier.clock]

theorem Carrier.position_of_clock {c d : Carrier} (h : c.clock = d.clock) : c.position = d.position :=
  (Carrier.clock_eq_iff.mp h).1

theorem Carrier.pInForce_of_clock {c d : Carrier} (h : c.clock = d.clock) : c.pInForce = d.pInForce := by
  obtain ⟨-, hp, -, -⟩ := Carrier.clock_eq_iff.mp h
  exact hp

theorem Carrier.bases_of_clock {c d : Carrier} (h : c.clock = d.clock) : c.bases = d.bases := by
  obtain ⟨-, -, hb, -⟩ := Carrier.clock_eq_iff.mp h
  exact hb

theorem Carrier.counter_of_clock {c d : Carrier} (h : c.clock = d.clock) : c.counter = d.counter := by
  obtain ⟨-, -, -, hc⟩ := Carrier.clock_eq_iff.mp h
  exact hc

namespace State

variable {s t : State}

@[simp] theorem departRun_clock (s : State) (m : Mode) : (s.departRun m).ctu.clock = s.ctu.clock := by
  simp [departRun, closeWindow]

@[simp] theorem requestTrip_clock (s : State) (r : TripRequest) : (s.requestTrip r).ctu.clock = s.ctu.clock := by
  simp only [requestTrip]
  split <;> simp

@[simp] theorem push_clock (s : State) (st : Stage) (g : Nat) (q : Option PolicyEntry) :
    (s.push st g q).ctu.clock = s.ctu.clock := by
  simp [push, enterInhibit, closeWindow]

@[simp] theorem latchEffect_clock (s : State) (p : Port) : (s.latchEffect p).1.ctu.clock = s.ctu.clock := by
  simp only [latchEffect, latchActive, openEpisode, joinRecovery, pushBack]
  repeat' split
  all_goals simp

@[simp] theorem takeCapture_clock (s : State) (p : Port) (c : Nat) : (s.takeCapture p c).ctu.clock = s.ctu.clock := by
  simp only [takeCapture]
  repeat' split
  all_goals rfl

@[simp] theorem planStep_clock (s : State) : s.planStep.ctu.clock = s.ctu.clock := by
  simp only [planStep, updCtu_ctu, mapCports]
  split <;> simp

@[simp] theorem stageProgress_clock (s : State) : s.stageProgress.ctu.clock = s.ctu.clock := by
  simp only [stageProgress, inhibitProgress, resumeProgress, remapCompletion, acceptDeferred]
  repeat' split
  all_goals simp [enterAlign, enterAwaitGrant, closeWindow]

/-- Every block's share of a period start leaves the master carrier's own values as they are. -/
theorem clock_blockKept (c : Nat × Nat × Tri Nat × Period) : BlockKept (fun t => t.ctu.clock = c) := by
  constructor
  case toLatchKept =>
    refine ⟨⟨?record, ?raise, ?trip, ?effect, ?count, ?outside, ?freed⟩, ?countPort, ?cutPort⟩
    all_goals
      intros
      subst_vars
      simp
  all_goals
    intros
    subst_vars
    simp

theorem clock_frameKept (c : Nat × Nat × Tri Nat × Period) : FrameKept (fun t => t.ctu.clock = c) := by
  constructor
  case toLatchKept => exact (clock_blockKept c).toLatchKept
  all_goals
    intros
    subst_vars
    simp

@[simp] theorem runStep_clock (s : State) (x : PsStep) : (s.runStep x).ctu.clock = s.ctu.clock :=
  (clock_blockKept _).runStep rfl x

@[simp] theorem judgePort_clock (s : State) (p : Port) : (s.judgePort p).ctu.clock = s.ctu.clock :=
  (clock_blockKept _).judgePort rfl p

@[simp] theorem takeLatch_clock (s : State) (l : Latch) : (s.takeLatch l).ctu.clock = s.ctu.clock :=
  (clock_blockKept _).takeLatch rfl l

@[simp] theorem receiveSts_clock (s : State) (p : Port) (bytes : List Byte) (late : Bool) :
    (s.receiveSts p bytes late).ctu.clock = s.ctu.clock := (clock_frameKept _).receiveSts rfl p bytes late

@[simp] theorem warmReset_clock (s : State) : s.warmReset.ctu.clock = s.ctu.clock := by
  simp [warmReset, mapCports]

@[simp] theorem fallSafety_clock (s : State) : s.fallSafety.ctu.clock = s.ctu.clock := by
  simp only [fallSafety]
  split <;> simp

theorem startRun_clock (s : State) : s.startRun.ctu.clock = s.ctu.clock := by
  simp [startRun, closeWindow]

theorem CarrierLaw.congr (h : s.CarrierLaw) (hs : t.settings = s.settings) (hc : t.ctu.clock = s.ctu.clock) :
    t.CarrierLaw := by
  have hposition : t.ctu.position = s.ctu.position := Carrier.position_of_clock hc
  have hp : t.ctu.pInForce = s.ctu.pInForce := Carrier.pInForce_of_clock hc
  refine ⟨hs ▸ h.record, ?_, ?_⟩
  · rw [hp]
    exact h.inForce
  · rw [hp, hposition]
    exact h.position

/-- R157: the record's own P is one that a cycle may take. -/
theorem CarrierLaw.settings_p (h : s.CarrierLaw) : 100 ≤ s.settings.p ∧ s.settings.p ≤ 4000 := by
  have := h.record
  simp only [settingsChecks, within, List.all_cons, id, Bool.and_eq_true, decide_eq_true_eq] at this
  exact this.2.1

theorem CarrierLaw.enterPeriod (h : s.CarrierLaw) : s.enterPeriod.CarrierLaw := by
  have hctu : s.enterPeriod.ctu = s.startCycle.ctu := by simp [State.enterPeriod, startCycle]
  refine ⟨by simpa using h.record, ?_, ?_⟩
  · rw [hctu]
    exact h.settings_p
  · rw [hctu]
    exact Nat.mul_pos two_pos (by have := h.settings_p.1; exact Nat.lt_of_lt_of_le (by decide) this)

theorem carrierLaw_periodKept : PeriodKept CarrierLaw where
  record _ _ h := h.congr rfl rfl
  run _ _ h := h.congr (by simp) (by simp)
  opening _ h := h.enterPeriod
  replies _ h := replyEnds_keeps h (fun _ => h.congr (by simp) (by simp)) (fun _ => h.congr (by simp) (by simp))
  supply _ _ h := h.congr rfl rfl
  judge _ _ h := h.congr (by simp) (by simp)
  latch _ _ h := h.congr (by simp) (by simp)
  handed _ _ h := h.congr rfl rfl

theorem settingsChecks_of_checkSetConfig {f : MgtFrame} (hc : s.checkSetConfig f = none) :
    (settingsChecks (settingsAt f.payload)).all id = true := by
  simp only [checkSetConfig, firstReject_eq_none, List.mem_cons, List.not_mem_nil, or_false, forall_eq_or_imp, forall_eq,
    Option.map_eq_none_iff, firstFailure_eq_none] at hc
  obtain ⟨-, -, hranges, -⟩ := hc
  exact List.all_eq_true.mpr hranges

theorem carrierLaw_commandKept : CommandKept CarrierLaw := by
  constructor
  case period => exact carrierLaw_periodKept
  case pinReset | riseReset => exact fun _ _ => ⟨rfl, ⟨Nat.le_of_ble_eq_true rfl, Nat.le_of_ble_eq_true rfl⟩, Nat.zero_lt_succ _⟩
  case tick => exact fun _ h hlt => ⟨h.record, h.inForce, hlt⟩
  case config => exact fun _ f h hc => ⟨settingsChecks_of_checkSetConfig hc, h.inForce, h.position⟩
  all_goals
    intros
    exact CarrierLaw.congr ‹_› (by simp [setSafety, badFrame]) (by simp [setSafety, badFrame, startRun_clock])

end State

/-- Settles O8: a cycle takes P from the record, which SET_CONFIG replaces by a checked one alone. -/
theorem carrierLawKept : Obligations.CarrierLawKept :=
  fun _ _ h hstep => State.carrierLaw_commandKept.step (fun _ _ h => h.congr rfl rfl) h hstep

end Sys2Proof.Machine

/-! ### The policies and the nest list (R32, R34) -/

namespace Sys2Proof.Machine

namespace State

variable {s t : State}

@[simp] theorem departRun_nest (s : State) (m : Mode) : (s.departRun m).rsq.nest = [] := by
  simp [departRun, sequencerRest]

theorem requestTrip_nest (s : State) (r : TripRequest) :
    (s.requestTrip r).rsq.nest = if s.mode = .run then [] else s.rsq.nest := by
  by_cases h : s.mode = .run
  · rw [requestTrip_of_run h, departRun_nest, if_pos h]
  · rw [requestTrip_of_not_run h, if_neg h]

theorem push_nest (s : State) (st : Stage) (g : Nat) (q : Option PolicyEntry) :
    ∃ c : Context, c.policy = q ∧ (s.push st g q).rsq.nest = s.rsq.nest ++ [c] :=
  ⟨_, rfl, by simp [push, enterInhibit]; rfl⟩

theorem foldl_makeIsolating_rsq (s : State) (ps : List Port) : (ps.foldl makeIsolating s).rsq = s.rsq :=
  foldl_keeps (P := fun t => t.rsq = s.rsq) (f := makeIsolating) (fun t p h => by simpa using h) ps rfl

theorem inhibitProgress_nest (s : State) : s.inhibitProgress.rsq.nest = s.rsq.nest := by
  simp only [inhibitProgress, enterIsolate]
  repeat' split
  all_goals simp

theorem PolicyLaw.congr (h : s.PolicyLaw) (hs : t.policyStaged = s.policyStaged)
    (ha : t.policyActive = s.policyActive) (hn : t.rsq.nest = s.rsq.nest) : t.PolicyLaw := by
  refine ⟨hs ▸ h.staged, ha ▸ h.active, hn ▸ h.episode, ?_⟩
  rw [nestDepth, hn]
  exact h.depth

theorem PolicyLaw.emptied (h : s.PolicyLaw) (hs : t.policyStaged = s.policyStaged)
    (ha : t.policyActive = s.policyActive) (hn : t.rsq.nest = []) : t.PolicyLaw := by
  refine ⟨hs ▸ h.staged, ha ▸ h.active, ?_, ?_⟩
  · simp [hn]
  · simp [nestDepth, hn]

theorem PolicyLaw.activePolicy (h : s.PolicyLaw) : s.activePolicy.Law := h.active s.cli.motion.index

/-- R33: the policy that governs is one in its ranges. -/
theorem PolicyLaw.governingPolicy (h : s.PolicyLaw) : s.governingPolicy.Law := by
  simp only [State.governingPolicy, episodePolicy]
  cases hc : s.rsq.nest with
  | nil => exact h.activePolicy
  | cons c l =>
    cases hp : c.policy with
    | none => simpa [hp] using h.activePolicy
    | some e => simpa [hp] using h.episode c (hc ▸ List.mem_cons_self) e hp

/-- A context joins where the depth stays within 3. -/
theorem PolicyLaw.push (h : s.PolicyLaw) (st : Stage) (g : Nat) {q : Option PolicyEntry} (hq : ∀ e, q = some e → e.Law)
    (hd : s.nestDepth + 1 ≤ 3) : (s.push st g q).PolicyLaw := by
  obtain ⟨c, hc, hn⟩ := s.push_nest st g q
  refine ⟨by simpa using h.staged, by simpa using h.active, ?_, ?_⟩
  · simp only [hn, List.mem_append, List.mem_singleton]
    rintro _ (hmem | rfl) e he
    · exact h.episode _ hmem e he
    · exact hq e (hc ▸ he)
  · simpa [nestDepth, hn] using hd

/-- R42: what the max_nest of the governing policy admits, the three places hold. -/
theorem PolicyLaw.admits (h : s.PolicyLaw) (hd : ¬s.governingPolicy.maxNest < s.nestDepth + 1) : s.nestDepth + 1 ≤ 3 := by
  have := h.governingPolicy.nest.2
  omega

theorem PolicyLaw.requestTrip (h : s.PolicyLaw) (r : TripRequest) : (s.requestTrip r).PolicyLaw := by
  by_cases hm : s.mode = .run
  · exact h.emptied (by simp) (by simp) (by simp [requestTrip_nest, hm])
  · exact (requestTrip_of_not_run hm r).symm ▸ h

theorem PolicyLaw.makeIsolating (h : s.PolicyLaw) (p : Port) : (s.makeIsolating p).PolicyLaw :=
  h.congr (by simp) (by simp) (by simp)

theorem PolicyLaw.openEpisode (h : s.PolicyLaw) (p : Port) (hn : s.rsq.nest = []) : (s.openEpisode p).1.PolicyLaw := by
  simp only [State.openEpisode]
  repeat' split
  · exact h.makeIsolating p
  · exact h.makeIsolating p
  · exact (h.makeIsolating p).push _ _ (by simpa using h.activePolicy) (by simp [nestDepth, hn])

theorem PolicyLaw.pushBack (h : s.PolicyLaw) (p : Port) (g : Nat) : (s.pushBack p g).1.PolicyLaw := by
  simp only [State.pushBack]
  repeat' split
  · exact h.makeIsolating p
  · exact h.makeIsolating p
  · exact (h.makeIsolating p).push _ _ (by simp) (by simpa only [nestDepth, makeIsolating_frame] using h.admits ‹_›)

theorem PolicyLaw.latchEffect (h : s.PolicyLaw) (p : Port) : (s.latchEffect p).1.PolicyLaw := by
  have same (t : State) (hs : t.policyStaged = s.policyStaged) (ha : t.policyActive = s.policyActive)
    (hr : t.rsq.nest = s.rsq.nest) : t.PolicyLaw := h.congr hs ha hr
  simp only [State.latchEffect, latchActive]
  repeat' split
  all_goals first
    | with_reducible exact h
    | with_reducible exact h.openEpisode p ‹_›
    | with_reducible exact h.pushBack p _
    | with_reducible exact same _ (by simp) (by simp) (by simp)

theorem PolicyLaw.copyBank (h : s.PolicyLaw) (g : Group) : (s.copyBank g).PolicyLaw := by
  cases g with
  | screen => exact h.congr rfl rfl rfl
  | rebalance => exact h.congr rfl rfl rfl
  | policy => exact ⟨h.staged, h.staged, h.episode, h.depth⟩

theorem PolicyLaw.copyBanks (h : s.PolicyLaw) (gs : List Group) : (s.copyBanks gs).PolicyLaw :=
  PolicyLaw.congr (foldl_keeps (P := PolicyLaw) (f := State.copyBank) (fun _ g h => h.copyBank g) gs h)
    (by simp [State.copyBanks]) (by simp [State.copyBanks]) (by simp [State.copyBanks])

theorem PolicyLaw.applyRecovery (h : s.PolicyLaw) : s.applyRecovery.PolicyLaw :=
  (h.copyBanks s.recoveryDue).congr rfl rfl rfl

theorem PolicyLaw.commitStep (h : s.PolicyLaw) : s.commitStep.PolicyLaw := by
  simp only [State.commitStep]
  split
  · exact PolicyLaw.congr (h.copyBanks (s.periodDue.filter (fun g => !s.commitDrops g))) (by simp) (by simp) (by simp)
  · exact h

theorem PolicyLaw.acceptDeferred (h : s.PolicyLaw) (ps : List Port) : (s.acceptDeferred ps).PolicyLaw := by
  have isolated : (ps.foldl State.makeIsolating s).PolicyLaw :=
    foldl_keeps (P := PolicyLaw) (f := State.makeIsolating) (fun _ p h => h.makeIsolating p) ps h
  simp only [State.acceptDeferred]
  repeat' split
  · exact isolated.requestTrip _
  · exact isolated.requestTrip _
  · exact isolated.push _ _ (by simp) (by simpa [nestDepth, foldl_makeIsolating_rsq] using h.admits ‹_›)

theorem PolicyLaw.stageProgress (h : s.PolicyLaw) : s.stageProgress.PolicyLaw := by
  have rebuilt : s.rebuild.applyRecovery.PolicyLaw :=
    PolicyLaw.applyRecovery (s := s.rebuild) (h.congr (by simp) (by simp) (by simp))
  simp only [State.stageProgress]
  split
  case h_1 => exact h
  case h_2 => exact h.congr (by simp) (by simp) (by simp [inhibitProgress_nest])
  case h_3 => split; exacts [h.congr rfl rfl rfl, h]
  case h_4 =>
    simp only [remapCompletion]
    repeat' split
    · exact rebuilt.requestTrip _
    · exact rebuilt.congr rfl rfl rfl
    · exact rebuilt.acceptDeferred _
  case h_5 => split; exacts [h.congr rfl rfl rfl, h]
  case h_6 => split; exacts [h.congr rfl rfl rfl, h]
  case h_7 =>
    simp only [resumeProgress, endResume]
    repeat' split
    · exact h.congr rfl rfl rfl
    · exact h.congr rfl rfl rfl
    · exact h.emptied rfl rfl rfl

theorem policyLaw_blockKept : BlockKept PolicyLaw := by
  constructor
  case toLatchKept =>
    refine ⟨⟨?record, ?raise, ?trip, ?effect, ?count, ?outside, ?freed⟩, ?countPort, ?cutPort⟩
    case trip => exact fun _ r h => h.requestTrip r
    case effect => exact fun _ p _ h => h.latchEffect p
    all_goals
      intros
      exact PolicyLaw.congr ‹_› (by simp) (by simp) (by simp)
  case progress => exact fun _ _ h => h.stageProgress
  case gap =>
    intro s _ h
    refine h.congr (by simp) (by simp) ?_
    simp only [gapStep]
    split <;> simp
  case commit => exact fun _ h => h.commitStep
  all_goals
    intros
    exact PolicyLaw.congr ‹_› (by simp) (by simp) (by simp)

theorem policyLaw_frameKept : FrameKept PolicyLaw := by
  constructor
  case toLatchKept => exact policyLaw_blockKept.toLatchKept
  all_goals
    intros
    exact PolicyLaw.congr ‹_› (by simp) (by simp) (by simp)

theorem warmReset_nest (s : State) : s.warmReset.rsq.nest = [] := by
  simp [warmReset, warmSequencer, Sequencer.afterPin]

theorem policyLaw_periodKept : PeriodKept PolicyLaw :=
  policyLaw_blockKept.periodKept (fun _ h => h.congr (by simp) (by simp) (by simp))
    (fun _ h => replyEnds_keeps h (fun _ => h.emptied (by simp) (by simp) (warmReset_nest _))
      (fun _ => h.congr (by simp) (by simp) (by simp)))
    (fun _ _ h => h.congr rfl rfl rfl) (fun _ _ h => h.congr rfl rfl rfl)

theorem PolicyLaw.fallSafety (h : s.PolicyLaw) : s.fallSafety.PolicyLaw := by
  simp only [State.fallSafety]
  split
  · exact h.emptied (by simp) (by simp) (by simp)
  all_goals exact h.congr (by simp) (by simp) (by simp)

theorem PolicyEntry.afterPin_law : PolicyEntry.afterPin.Law := by
  constructor <;> decide

theorem policyLaw_of_atPinReset (h : t.policyStaged = (atPinReset s.lines []).policyStaged)
    (ha : t.policyActive = (atPinReset s.lines []).policyActive) (hn : t.rsq.nest = []) : t.PolicyLaw := by
  have law (i : Fin 7) : ((Vector.replicate 7 PolicyEntry.afterPin)[i.val]).Law := by
    simpa using PolicyEntry.afterPin_law
  exact ⟨fun i => h ▸ law i, fun i => ha ▸ law i, by simp [hn], by simp [nestDepth, hn]⟩

/-- R32: a policy entry is read from a payload in its ranges alone. -/
theorem policyWriteAt_law {l : List Byte} {i : Nat} {e : PolicyEntry} (h : policyWriteAt l i = some e) : e.Law := by
  simp only [policyWriteAt] at h
  split at h
  · obtain ⟨hgap, hgapTop, hramp, hnest, hnestTop⟩ := ‹_ ∧ _›
    have hbyte : byteOr l (i + 3) ≤ 255 := by
      simp only [byteOr, byteAt]
      cases l[i + 3]? with
      | none => simp
      | some b => simpa using Nat.le_of_lt_succ b.isLt
    cases h
    exact ⟨⟨hgap, hgapTop⟩, ⟨hramp, hbyte⟩, hnest, hnestTop⟩
  · cases h

theorem PolicyLaw.writeStore (h : s.PolicyLaw) (f : MgtFrame) : (s.writeStore f).PolicyLaw := by
  simp only [State.writeStore]
  split
  · exact h.congr (by simp) (by simp) (by simp)
  · exact h.congr rfl rfl rfl
  · exact h.congr rfl rfl rfl
  · refine ⟨fun i => ?_, h.active, h.episode, h.depth⟩
    have hi := h.staged i
    simp only [Vector.getElem_ofFn, stagedEntry]
    split
    · cases hw : policyWriteAt f.payload (writeOffset 5 (i.val - byteOr f.payload 1)) with
      | none => exact hi
      | some e => exact policyWriteAt_law hw
    · exact hi
  · exact h

theorem PolicyLaw.commitStore (h : s.PolicyLaw) (f : MgtFrame) : (s.commitStore f).PolicyLaw := by
  simp only [State.commitStore]
  repeat' split
  · exact (h.copyBanks _).congr rfl rfl rfl
  all_goals exact h.congr rfl rfl rfl

theorem receiveRef_nest (s : State) (f : RefFrame) : (s.receiveRef f).rsq.nest = s.rsq.nest := by
  simp only [receiveRef, takeGrant]
  repeat' split
  all_goals simp

theorem policyLaw_commandKept : CommandKept PolicyLaw := by
  constructor
  case period => exact policyLaw_periodKept
  case pinReset | riseReset => exact fun s _ => policyLaw_of_atPinReset (s := s) rfl rfl rfl
  case fall => exact fun _ h => h.fallSafety
  case ref => exact fun s f h => h.congr (by simp) (by simp) (s.receiveRef_nest f)
  case sts => exact fun _ p bytes late h => policyLaw_frameKept.receiveSts h p bytes late
  case warm => exact fun _ h _ => h.emptied (by simp) (by simp) (warmReset_nest _)
  case write => exact fun _ f h _ => h.writeStore f
  case commit => exact fun _ f h => h.commitStore f
  case start => exact fun _ _ h _ _ => h.emptied (by simp) (by simp) (by simp [startRun])
  case stop => exact fun _ h => h.emptied (by simp) (by simp) (by simp)
  all_goals
    intros
    exact PolicyLaw.congr ‹_› (by simp [setSafety, badFrame]) (by simp [setSafety, badFrame])
      (by simp [setSafety, badFrame])

end State

/-- Settles O7: an entry is stored in its ranges alone, and max_nest, at most 3, bounds every push. -/
theorem policyLawKept : Obligations.PolicyLawKept :=
  fun _ _ h hstep => State.policyLaw_commandKept.step (fun _ _ h => h.congr rfl rfl rfl) h hstep

end Sys2Proof.Machine

/-! ### The actuation queue (R57) -/

namespace Sys2Proof.Machine

namespace State

variable {s t : State}

@[simp] theorem departRun_queue (s : State) (m : Mode) :
    (s.departRun m).bau.queue = s.bau.queue.filter (fun a => a.dir == .closed || a.issued.isSome) := by
  simp [departRun, pruneQueue, sequencerRest, closeWindow]

@[simp] theorem makeIsolating_queue (s : State) (p : Port) : (s.makeIsolating p).bau.queue = s.bau.queue := by
  simp [makeIsolating]

@[simp] theorem stopSettle_queue (s : State) : s.stopSettle.bau.queue = s.bau.queue := by
  simp only [stopSettle]
  split <;> simp

@[simp] theorem rebuild_queue (s : State) : s.rebuild.bau.queue = s.bau.queue := by
  simp [rebuild]

@[simp] theorem latchEffect_queue (s : State) (p : Port) : (s.latchEffect p).1.bau.queue = s.bau.queue := by
  simp only [latchEffect, latchActive, openEpisode, joinRecovery, pushBack]
  repeat' split
  all_goals simp

theorem foldl_makeIsolating_queue (s : State) (ps : List Port) : (ps.foldl makeIsolating s).bau.queue = s.bau.queue :=
  foldl_keeps (P := fun t => t.bau.queue = s.bau.queue) (f := makeIsolating) (fun t p h => by simpa using h) ps rfl

theorem requestTrip_queue_sublist (s : State) (r : TripRequest) :
    (s.requestTrip r).bau.queue.Sublist s.bau.queue := by
  by_cases h : s.mode = .run
  · simpa only [requestTrip_of_run h, departRun_queue, writeLog_frame] using List.filter_sublist
  · exact (requestTrip_of_not_run h r).symm ▸ List.Sublist.refl _

theorem stageProgress_queue_sublist (s : State) : s.stageProgress.bau.queue.Sublist s.bau.queue := by
  have rebuilt : s.rebuild.applyRecovery.bau.queue = s.bau.queue := by simp
  simp only [stageProgress]
  split
  case h_1 => exact List.Sublist.refl _
  case h_2 =>
    simp only [inhibitProgress, enterIsolate]
    repeat' split
    all_goals simp
  case h_3 => split <;> simp [enterRemap]
  case h_4 =>
    simp only [remapCompletion, acceptDeferred]
    repeat' split
    · exact rebuilt ▸ requestTrip_queue_sublist _ _
    · simp [enterAlign, closeWindow]
    · exact (requestTrip_queue_sublist _ _).trans (by simp [foldl_makeIsolating_queue])
    · exact (requestTrip_queue_sublist _ _).trans (by simp [foldl_makeIsolating_queue])
    · simp [foldl_makeIsolating_queue]
  case h_5 => split <;> simp [enterAwaitGrant, closeWindow]
  case h_6 => split <;> simp [enterResume]
  case h_7 =>
    simp only [resumeProgress]
    split <;> simp

/-- Entries that leave the queue leave its law as it is. -/
theorem QueueLaw.sublist (h : s.QueueLaw) (hq : t.bau.queue.Sublist s.bau.queue) : t.QueueLaw :=
  ⟨h.ports.sublist (hq.map _), fun a ha => h.waiting a (hq.tail.subset ha)⟩

theorem QueueLaw.congr (h : s.QueueLaw) (hq : t.bau.queue = s.bau.queue) : t.QueueLaw :=
  h.sublist (hq ▸ List.Sublist.refl _)

theorem queueLaw_of_nil (hq : t.bau.queue = []) : t.QueueLaw := ⟨by simp [hq], by simp [hq]⟩

theorem queued_eq_true_iff {p : Port} : s.queued p = true ↔ ∃ a ∈ s.bau.queue, a.port = p := by
  simp [queued]

theorem reconcileDir?_queued {p : Port} {d : Order} (h : s.reconcileDir? p = some d) : ∀ a ∈ s.bau.queue, a.port ≠ p := by
  simp only [reconcileDir?] at h
  split at h
  · rename_i hopen
    intro a ha hp
    have hnot : ¬s.queued p = true := by simpa using hopen.2.1
    exact hnot (queued_eq_true_iff.mpr ⟨a, ha, hp⟩)
  · cases h

theorem mem_reconcileEntries {d : Order} {a : Actuation} (h : a ∈ s.reconcileEntries d) :
    s.reconcileDir? a.port = some d ∧ a.issued = none := by
  simp only [reconcileEntries, List.mem_map, List.mem_filter, decide_eq_true_eq] at h
  obtain ⟨p, ⟨-, hp⟩, rfl⟩ := h
  exact ⟨hp, rfl⟩

theorem allPorts_nodup : allPorts.Nodup := List.nodup_finRange 24

theorem mem_allPorts (p : Port) : p ∈ allPorts := List.mem_finRange p

theorem reconcileEntries_ports (s : State) (d : Order) :
    (s.reconcileEntries d).map (fun a => a.port) = allPorts.filter (fun p => s.reconcileDir? p = some d) := by
  simp [reconcileEntries, Function.comp_def]

theorem QueueLaw.reconcileStep (h : s.QueueLaw) : s.reconcileStep.QueueLaw := by
  have hq : s.reconcileStep.bau.queue =
    s.bau.queue ++ s.reconcileEntries .closed ++ s.reconcileEntries .opened := by simp [State.reconcileStep]
  constructor
  · rw [hq, List.map_append, List.map_append, reconcileEntries_ports, reconcileEntries_ports, List.nodup_append,
      List.nodup_append]
    refine ⟨⟨h.ports, allPorts_nodup.filter _, ?_⟩, allPorts_nodup.filter _, ?_⟩
    · rintro _ hp q hclosed rfl
      obtain ⟨a, ha, hap⟩ := List.mem_map.mp hp
      exact reconcileDir?_queued (by simpa using List.of_mem_filter hclosed) a ha hap
    · rintro q hp _ hopened rfl
      have hopened : s.reconcileDir? q = some .opened := by simpa using List.of_mem_filter hopened
      rcases List.mem_append.mp hp with hp | hclosed
      · obtain ⟨a, ha, hap⟩ := List.mem_map.mp hp
        exact reconcileDir?_queued hopened a ha hap
      · have hclosed : s.reconcileDir? q = some .closed := by simpa using List.of_mem_filter hclosed
        rw [hopened] at hclosed
        cases hclosed
  · intro a ha
    rw [hq, List.append_assoc] at ha
    have hmem : a ∈ s.bau.queue.tail ∨ a ∈ s.reconcileEntries .closed ∨ a ∈ s.reconcileEntries .opened := by
      cases hs : s.bau.queue with
      | nil =>
        rw [hs] at ha
        exact Or.inr (by simpa using List.mem_of_mem_tail ha)
      | cons b l =>
        rw [hs] at ha
        simpa using ha
    rcases hmem with ha | ha | ha
    · exact h.waiting a ha
    · exact (mem_reconcileEntries ha).2
    · exact (mem_reconcileEntries ha).2

theorem issuable?_eq_some {a : Actuation} (h : s.issuable? = some a) : s.bau.queue.head? = some a ∧ a.issued = none := by
  simp only [issuable?] at h
  split at h
  · simpa [Option.filter_eq_some_iff] using h
  · cases h

theorem QueueLaw.issueStep (h : s.QueueLaw) : s.issueStep.QueueLaw := by
  simp only [State.issueStep]
  split
  · rename_i a ha
    obtain ⟨l, hl⟩ := List.head?_eq_some_iff.mp (issuable?_eq_some ha).1
    have hports := h.ports
    have hwaiting := h.waiting
    rw [hl] at hports hwaiting
    exact ⟨by simpa [hl] using hports, by simpa [hl] using hwaiting⟩
  · exact h

theorem dropHead_queue_sublist (s : State) : s.dropHead.bau.queue.Sublist s.bau.queue := by
  simpa [dropHead] using List.tail_sublist s.bau.queue

theorem QueueLaw.requestTrip (h : s.QueueLaw) (r : TripRequest) : (s.requestTrip r).QueueLaw :=
  h.sublist (s.requestTrip_queue_sublist r)

theorem deemClosed_queue_sublist (s : State) (p : Port) : (s.deemClosed p).bau.queue.Sublist s.bau.queue := by
  simp only [deemClosed]
  split
  · exact (dropHead_queue_sublist _).trans (by simp)
  · simp

theorem confirmContact_queue_sublist (s : State) (p : Port) (c : Contact) :
    (s.confirmContact p c).bau.queue.Sublist s.bau.queue := by
  simp only [confirmContact]
  repeat' split
  all_goals simp [setRetry, dropHead_queue_sublist]

theorem settleStep_queue (s : State) : s.settleStep.bau.queue = s.bau.queue := by
  simp only [settleStep]
  repeat' split
  all_goals simp

theorem queueLaw_blockKept : BlockKept QueueLaw := by
  constructor
  case toLatchKept =>
    refine ⟨⟨?record, ?raise, ?trip, ?effect, ?count, ?outside, ?freed⟩, ?countPort, ?cutPort⟩
    case trip => exact fun _ r h => h.requestTrip r
    case cutPort => exact fun s p h => h.sublist (by simp [dropWaiting])
    all_goals
      intros
      exact QueueLaw.congr ‹_› (by simp)
  case supply => exact fun _ h => h.congr rfl
  case retry => exact fun _ _ h => h.congr rfl
  case dropHead => exact fun s h => h.sublist s.dropHead_queue_sublist
  case deem => exact fun s p h => h.sublist (s.deemClosed_queue_sublist p)
  case progress => exact fun s _ h => h.sublist s.stageProgress_queue_sublist
  case reconcile => exact fun _ h => h.reconcileStep
  case settle => exact fun s h => h.congr s.settleStep_queue
  case issue => exact fun _ h => h.issueStep
  all_goals
    intros
    exact QueueLaw.congr ‹_› (by simp)

theorem queueLaw_frameKept : FrameKept QueueLaw := by
  constructor
  case toLatchKept => exact queueLaw_blockKept.toLatchKept
  case confirm => exact fun s p c h => h.sublist (s.confirmContact_queue_sublist p c)
  all_goals
    intros
    exact QueueLaw.congr ‹_› (by simp)

@[simp] theorem warmReset_queue (s : State) : s.warmReset.bau.queue = [] := by
  simp [warmReset, warmBypass, Bypass.afterPin]

theorem QueueLaw.fallSafety (h : s.QueueLaw) : s.fallSafety.QueueLaw := by
  simp only [State.fallSafety]
  split
  · exact h.sublist (by simp)
  all_goals exact h.congr (by simp)

theorem queueLaw_commandKept : CommandKept QueueLaw := by
  constructor
  case period =>
    exact queueLaw_blockKept.periodKept (fun _ h => h.congr (by simp))
      (fun _ h => replyEnds_keeps h (fun _ => queueLaw_of_nil (warmReset_queue _)) (fun _ => h.congr (by simp)))
      (fun _ _ h => h.congr rfl) (fun _ _ h => h.congr rfl)
  case pinReset | riseReset => exact fun _ _ => queueLaw_of_nil rfl
  case fall => exact fun _ h => h.fallSafety
  case sts => exact fun _ p bytes late h => queueLaw_frameKept.receiveSts h p bytes late
  case warm => exact fun _ _ _ => queueLaw_of_nil (warmReset_queue _)
  case stop => exact fun _ h => h.sublist (by simp)
  all_goals
    intros
    exact QueueLaw.congr ‹_› (by simp [setSafety, badFrame])

end State

/-- Settles O6: reconciliation passes over every port that has an entry, and the head alone is issued. -/
theorem queueLawKept : Obligations.QueueLawKept :=
  fun _ _ h hstep => State.queueLaw_commandKept.step (fun _ _ h => h.congr rfl) h hstep

end Sys2Proof.Machine

/-! ### Mode, stage and nest list (R21, R34, R46 to R48, R165) -/

namespace Sys2Proof.Machine

namespace State

variable {s t : State}

/-! #### The law of mode, stage and nest list -/

theorem stageLaw_latchKept : LatchKept StageLaw := by
  refine ⟨⟨?record, ?raise, ?trip, ?effect, ?count, ?outside, ?freed⟩, ?countPort, ?cutPort⟩
  case trip => exact fun _ r h => h.requestTrip r
  case effect => exact fun _ p hm h => h.latchEffect hm p
  all_goals
    intros
    exact StageLaw.congr ‹_› (by simp) (by simp)

theorem StageLaw.runStep (h : s.StageLaw) (x : PsStep) : (s.runStep x).StageLaw := by
  cases x
  case hold => exact h.holdStep
  case fail => exact h.failStep
  case sequencer => exact h.sequencerStep
  case links => exact h.linksStep
  case window => exact h.windowStep
  all_goals exact h.congr (by simp [State.runStep]) (by simp [State.runStep])

theorem modeByLine_ne_run (s : State) : s.modeByLine ≠ .run := by
  simp only [modeByLine]
  split <;> simp

theorem modeByLine_ne_tripped (s : State) : s.modeByLine ≠ .tripped := by
  simp only [modeByLine]
  split <;> simp

@[simp] theorem warmReset_mode (s : State) : s.warmReset.mode = s.modeByLine := by
  simp only [warmReset, updMga_mode, raiseIf_frame, updCli_mode, updSsc_mode, updCtu_mode, updRtu_mode, updBau_mode,
    updRsq_mode, mapCports_mode, mapEntries_mode, mapLinks_mode, warmMode]
  split
  · rename_i h
    exact h.1.symm
  · rfl

theorem warmReset_rsq (s : State) : s.warmReset.rsq = warmSequencer s.rsq := by
  simp [warmReset]

theorem pinReset_rsq (s : State) : s.pinReset.rsq = Sequencer.afterPin := rfl

theorem riseReset_rsq (s : State) : s.riseReset.rsq = Sequencer.afterPin := rfl

theorem warmReset_stageLaw (s : State) : s.warmReset.StageLaw := by
  constructor <;> simp [warmReset_rsq, warmSequencer, Sequencer.afterPin]

theorem stageLaw_periodKept : PeriodKept StageLaw where
  record _ _ h := h.congr rfl rfl
  run _ x h := h.runStep x
  opening _ h := h.congr (by simp) (by simp)
  replies s h := replyEnds_keeps h (fun _ => s.warmReset_stageLaw) (fun _ => h.congr (by simp) (by simp))
  supply _ _ h := h.congr rfl rfl
  judge _ p h := h.judgePort p
  latch _ l h := h.takeLatch l
  handed _ _ h := h.congr rfl rfl

theorem stageLaw_frameKept : FrameKept StageLaw := by
  constructor
  case toLatchKept => exact stageLaw_latchKept
  all_goals
    intros
    exact StageLaw.congr ‹_› (by simp) (by simp)

/-- A change between two modes other than RUN. -/
theorem StageLaw.setMode (h : s.StageLaw) (m : Mode) (hs : s.mode ≠ .run) : (s.setMode m).StageLaw :=
  ⟨fun _ => h.stage hs, h.nest, h.grant, h.gain⟩

theorem StageLaw.fallSafety (h : s.StageLaw) : s.fallSafety.StageLaw := by
  simp only [State.fallSafety]
  split
  case h_1 => exact departRun_stageLaw _ _
  case h_2 hm =>
    refine StageLaw.congr (s := s.setMode .safeStop) (h.setMode .safeStop (by simp [hm])) (by simp) (by simp)
  case h_3 hm =>
    refine StageLaw.congr (s := s.setMode .safeStop) (h.setMode .safeStop (by simp [hm])) (by simp) (by simp)
  case h_4 => exact h.congr rfl rfl

/-- R47: a grant becomes pending where it is fresh, and that is in AWAIT_GRANT. -/
theorem receiveRef_rsq (s : State) (f : RefFrame) :
    (s.receiveRef f).rsq = s.rsq ∨
      (s.rsq.stage = .awaitGrant ∧ (s.receiveRef f).rsq = { s.rsq with grantPending := true }) := by
  simp only [receiveRef, takeGrant]
  repeat' split
  all_goals simp_all [grantFresh]

theorem StageLaw.receiveRef (h : s.StageLaw) (f : RefFrame) : (s.receiveRef f).StageLaw := by
  rcases s.receiveRef_rsq f with hr | ⟨hs, hr⟩
  · exact h.congr (by simp) hr
  · have hm : (s.receiveRef f).mode = s.mode := by simp
    constructor <;> simp only [hm, hr]
    exacts [h.stage, h.nest, fun _ => hs, h.gain]

theorem mode_of_checkStart {f : MgtFrame} (hc : s.checkStart f = none) : s.mode = .standby := by
  simp only [checkStart, firstReject_eq_none, List.mem_cons, List.not_mem_nil, or_false, forall_eq_or_imp, forall_eq,
    Option.map_eq_none_iff, firstFailure_eq_none, startChecks, beq_iff_eq] at hc
  exact hc.2.1

theorem StageLaw.startRun (h : s.StageLaw) (hm : s.mode = .standby) : s.startRun.StageLaw := by
  have hstage := h.stage (by simp [hm])
  have hgrant := h.grant
  have hgain := h.gain
  constructor <;> simp_all [State.startRun]

theorem mode_of_checkClear {f : MgtFrame} (hc : s.checkClear f = none) :
    s.mode = .tripped ∨ (s.mode = .safeStop ∧ s.lines.safetyStopN = true) := by
  simp only [checkClear, firstReject_eq_none, List.mem_cons, List.not_mem_nil, or_false, forall_eq_or_imp, forall_eq,
    require_eq_none, Bool.or_eq_true, beq_iff_eq, bne_iff_ne] at hc
  obtain ⟨hm, -, hl⟩ := hc
  rcases hm with hm | hm
  · exact Or.inl hm
  · exact Or.inr ⟨hm, hl.resolve_left (fun h => h hm)⟩

theorem stageLaw_commandKept : CommandKept StageLaw := by
  constructor
  case period => exact stageLaw_periodKept
  case pinReset | riseReset =>
    intro s _
    constructor <;> intros <;> first | rfl | contradiction
  case fall => exact fun _ h => h.fallSafety
  case ref => exact fun _ f h => h.receiveRef f
  case sts => exact fun _ p bytes late h => stageLaw_frameKept.receiveSts h p bytes late
  case warm => exact fun s _ _ => s.warmReset_stageLaw
  case start => exact fun _ _ h _ hc => h.startRun (mode_of_checkStart hc)
  case stop => exact fun s _ => s.departRun_stageLaw .standby
  case clear =>
    intro s f h hc
    refine h.setMode _ ?_
    rcases mode_of_checkClear hc with hm | hm <;> simp [hm]
  all_goals
    intros
    exact StageLaw.congr ‹_› (by simp [setSafety, badFrame]) (by simp [setSafety, badFrame])

/-! #### The law of the gap count -/

/-- The laws of the policies and of the gap count: the count is bounded by a budget that the policies keep above 0. -/
def EpisodeLaw (s : State) : Prop := s.PolicyLaw ∧ s.GapLaw

theorem EpisodeLaw.congr (h : s.EpisodeLaw) (hs : t.policyStaged = s.policyStaged)
    (ha : t.policyActive = s.policyActive) (hr : t.rsq = s.rsq) : t.EpisodeLaw :=
  ⟨h.1.congr hs ha (by rw [hr]), h.2.congr hr⟩

theorem EpisodeLaw.of_policyLaw (h : s.EpisodeLaw) (hp : t.PolicyLaw) (hr : t.rsq = s.rsq) : t.EpisodeLaw :=
  ⟨hp, h.2.congr hr⟩

theorem EpisodeLaw.budget (h : s.EpisodeLaw) : 1 ≤ s.activePolicy.gapBudget := h.1.activePolicy.gap.1

theorem gapLaw_of_nil (hs : t.rsq.stage ≠ .inhibit ∧ t.rsq.stage ≠ .isolate ∧ t.rsq.stage ≠ .remap)
    (hn : t.rsq.nest = []) : t.GapLaw :=
  ⟨fun h => by simp [hs] at h, fun h => absurd hn h⟩

theorem episodeLaw_latchKept : LatchKept EpisodeLaw := by
  refine ⟨⟨?record, ?raise, ?trip, ?effect, ?count, ?outside, ?freed⟩, ?countPort, ?cutPort⟩
  case trip => exact fun _ r h => ⟨h.1.requestTrip r, h.2.requestTrip r⟩
  case effect => exact fun _ p _ h => ⟨h.1.latchEffect p, h.2.latchEffect h.budget p⟩
  all_goals
    intros
    exact EpisodeLaw.congr ‹_› (by simp) (by simp) (by simp)

theorem EpisodeLaw.runStep (h : s.EpisodeLaw) (x : PsStep) : (s.runStep x).EpisodeLaw := by
  refine ⟨policyLaw_blockKept.runStep h.1 x, ?_⟩
  cases x
  case hold => exact h.2.holdStep
  case fail => exact h.2.failStep
  case sequencer => exact h.2.sequencerStep
  case links => exact h.2.linksStep h.budget
  case window => exact h.2.windowStep h.budget
  all_goals exact h.2.congr (by simp [State.runStep])

theorem warmReset_episodeLaw (h : s.EpisodeLaw) : s.warmReset.EpisodeLaw :=
  ⟨h.1.emptied (by simp) (by simp) s.warmReset_nest,
    gapLaw_of_nil (by simp [warmReset_rsq, warmSequencer, Sequencer.afterPin]) s.warmReset_nest⟩

theorem episodeLaw_periodKept : PeriodKept EpisodeLaw where
  record _ _ h := h.congr rfl rfl rfl
  run _ x h := h.runStep x
  opening _ h := h.congr (by simp) (by simp) (by simp)
  replies _ h := replyEnds_keeps h (fun _ => warmReset_episodeLaw h) (fun _ => h.congr (by simp) (by simp) (by simp))
  supply _ _ h := h.congr rfl rfl rfl
  judge _ p h := episodeLaw_latchKept.judgePort h p
  latch _ l h := episodeLaw_latchKept.takeLatch h l
  handed _ _ h := h.congr rfl rfl rfl

theorem episodeLaw_frameKept : FrameKept EpisodeLaw := by
  constructor
  case toLatchKept => exact episodeLaw_latchKept
  all_goals
    intros
    exact EpisodeLaw.congr ‹_› (by simp) (by simp) (by simp)

theorem GapLaw.receiveRef (h : s.GapLaw) (f : RefFrame) : (s.receiveRef f).GapLaw := by
  rcases s.receiveRef_rsq f with hr | ⟨-, hr⟩
  · exact h.congr hr
  · have he : (s.receiveRef f).episodePolicy = s.episodePolicy := by simp only [episodePolicy, hr]
    constructor <;> simp only [hr, he]
    exacts [h.opened, h.below]

theorem GapLaw.fallSafety (h : s.GapLaw) : s.fallSafety.GapLaw := by
  simp only [State.fallSafety]
  split
  case h_1 => exact departRun_gapLaw _ _
  all_goals exact h.congr (by simp)

theorem startRun_gapLaw (s : State) : s.startRun.GapLaw :=
  gapLaw_of_nil (by simp [startRun]) (by simp [startRun])

theorem episodeLaw_commandKept : CommandKept EpisodeLaw := by
  constructor
  case period => exact episodeLaw_periodKept
  case pinReset => exact fun s h => ⟨policyLaw_commandKept.pinReset s h.1, gapLaw_of_nil (by simp [pinReset_rsq, Sequencer.afterPin]) rfl⟩
  case riseReset => exact fun s h => ⟨policyLaw_commandKept.riseReset s h.1, gapLaw_of_nil (by simp [riseReset_rsq, Sequencer.afterPin]) rfl⟩
  case fall => exact fun _ h => ⟨h.1.fallSafety, h.2.fallSafety⟩
  case ref => exact fun s f h => ⟨policyLaw_commandKept.ref s f h.1, h.2.receiveRef f⟩
  case sts => exact fun _ p bytes late h => episodeLaw_frameKept.receiveSts h p bytes late
  case warm => exact fun _ h _ => warmReset_episodeLaw h
  case write => exact fun _ f h _ => h.of_policyLaw (h.1.writeStore f) (by simp)
  case commit => exact fun _ f h => h.of_policyLaw (h.1.commitStore f) (by simp)
  case start => exact fun s f h hp hc => ⟨policyLaw_commandKept.start s f h.1 hp hc, s.startRun_gapLaw⟩
  case stop => exact fun s h => ⟨policyLaw_commandKept.stop s h.1, departRun_gapLaw _ _⟩
  all_goals
    intros
    exact EpisodeLaw.congr ‹_› (by simp [setSafety, badFrame]) (by simp [setSafety, badFrame])
      (by simp [setSafety, badFrame])

end State

end Sys2Proof.Machine

/-! ### The changes of mode (R165) -/

namespace Sys2Proof.Machine

/-! The steps of a period start keep what its blocks keep, whatever the replies sent before it do. -/

namespace BlockKept

variable {P : State → Prop} (k : BlockKept P) {s : State}
include k

theorem takeOne (h : P s) (x : PsStep) : P (s.takeOne x) := by
  simp only [State.takeOne]
  split
  · exact h
  · exact k.runStep (k.record _ _ h) x

theorem prepare (h : P s) (x : PsStep) : P (s.prepare x) := by
  have ht := foldl_keeps (P := P) (f := State.takeOne) (fun _ x h => k.takeOne h x) (s.before x) h
  simp only [State.prepare]
  split
  · exact k.takeOne ht _
  · exact ht

theorem takeStep (h : P s) (x : PsStep) : P (s.takeStep x) := k.takeOne (k.prepare h x) x

theorem finishPeriod (handed : ∀ s h, P s → P (s.updSsc (fun c => { c with handed := h }))) (h : P s) :
    P s.finishPeriod := by
  have hlatches (t : State) (h : P t) : P t.takeHanded :=
    foldl_keeps (P := P) (f := State.takeLatch) (fun _ l h => k.takeLatch h l) _ (handed t [] h)
  simp only [State.finishPeriod]
  split
  · exact hlatches _ (k.record _ _ (foldl_keeps (P := P) (f := State.takeStep) (fun _ x h => k.takeStep h x) _ h))
  · exact hlatches _ h

end BlockKept

namespace State

variable {s t u : State}

@[simp] theorem departRun_mode (s : State) (m : Mode) : (s.departRun m).mode = m := rfl

@[simp] theorem applyRecovery_warmPending (s : State) : s.applyRecovery.mga.warmPending = s.mga.warmPending := by
  simp [applyRecovery]

@[simp] theorem commitStep_warmPending (s : State) : s.commitStep.mga.warmPending = s.mga.warmPending := by
  simp only [commitStep]
  split <;> simp

@[simp] theorem stageProgress_warmPending (s : State) : s.stageProgress.mga.warmPending = s.mga.warmPending := by
  simp only [stageProgress, remapCompletion, acceptDeferred]
  repeat' split
  all_goals simp [enterAlign]

@[simp] theorem warmReset_warmPending (s : State) : s.warmReset.mga.warmPending = false := by
  simp [warmReset, warmAgent]

/-- What a period start, a latch or a frame does to the mode: nothing, a trip, or, once, a pending warm reset. -/
structure ModeMoved (s t : State) : Prop where
  line : t.lines.safetyStopN = s.lines.safetyStopN
  moved : (t.mga.warmPending = s.mga.warmPending ∧ (t.mode = s.mode ∨ (s.mode = .run ∧ t.mode = .tripped))) ∨
    (t.mga.warmPending = false ∧ s.mga.warmPending = true ∧ s.mode ≠ .run ∧ t.mode = s.modeByLine)

theorem ModeMoved.refl (s : State) : ModeMoved s s := ⟨rfl, Or.inl ⟨rfl, Or.inl rfl⟩⟩

theorem ModeMoved.congr (h : ModeMoved s t) (hl : u.lines.safetyStopN = t.lines.safetyStopN)
    (hw : u.mga.warmPending = t.mga.warmPending) (hm : u.mode = t.mode) : ModeMoved s u := by
  refine ⟨hl.trans h.line, ?_⟩
  rw [hw, hm]
  exact h.moved

/-- R166: a trip is taken in RUN alone, and leads to TRIPPED. -/
theorem ModeMoved.requestTrip (h : ModeMoved s t) (r : TripRequest) : ModeMoved s (t.requestTrip r) := by
  by_cases hm : t.mode = .run
  · have htripped : (t.requestTrip r).mode = .tripped := by rw [requestTrip_of_run hm, departRun_mode]
    refine ⟨by simpa using h.line, Or.inl ?_⟩
    rcases h.moved with ⟨hw, hrun | ⟨-, hrun⟩⟩ | ⟨-, -, -, hrun⟩
    · exact ⟨by simpa using hw, Or.inr ⟨hrun ▸ hm, htripped⟩⟩
    · rw [hm] at hrun
      cases hrun
    · exact absurd (hrun ▸ hm) (modeByLine_ne_run s)
  · exact (requestTrip_of_not_run hm r).symm ▸ h

theorem modeMoved_blockKept (s : State) : BlockKept (ModeMoved s) := by
  constructor
  case toLatchKept =>
    refine ⟨⟨?record, ?raise, ?trip, ?effect, ?count, ?outside, ?freed⟩, ?countPort, ?cutPort⟩
    case trip => exact fun _ r h => h.requestTrip r
    all_goals
      intros
      exact ModeMoved.congr ‹_› (by simp) (by simp) (by simp)
  case progress =>
    intro t hm h
    simp only [State.stageProgress]
    split
    case h_4 =>
      have rebuilt : ModeMoved s t.rebuild.applyRecovery := h.congr (by simp) (by simp) (by simp)
      simp only [State.remapCompletion, acceptDeferred]
      repeat' split
      · exact rebuilt.requestTrip _
      · exact rebuilt.congr (by simp [enterAlign]) (by simp [enterAlign]) (by simp [enterAlign])
      · exact ModeMoved.requestTrip (rebuilt.congr (by simp) (by simp) (by simp)) _
      · exact ModeMoved.requestTrip (rebuilt.congr (by simp) (by simp) (by simp)) _
      · exact rebuilt.congr (by simp) (by simp) (by simp)
    case h_7 => exact h.congr (by simp) (by simp) (by simp)
    case h_1 => exact h
    case h_2 => exact h.congr (by simp) (by simp) (by simp)
    all_goals
      split
      exacts [h.congr rfl rfl rfl, h]
  all_goals
    intros
    exact ModeMoved.congr ‹_› (by simp) (by simp) (by simp)

theorem modeMoved_frameKept (s : State) : FrameKept (ModeMoved s) := by
  constructor
  case toLatchKept => exact (modeMoved_blockKept s).toLatchKept
  all_goals
    intros
    exact ModeMoved.congr ‹_› (by simp) (by simp) (by simp)

/-- R160: a warm reset takes effect outside RUN, where the mode follows the line. -/
theorem ModeMoved.warmReset (hq : s.mode = .run → s.mga.warmPending = false) (h : ModeMoved s t)
    (hp : t.mga.warmPending = true) : ModeMoved s t.warmReset := by
  refine ⟨by simpa using h.line, Or.inr ?_⟩
  rcases h.moved with ⟨hw, -⟩ | ⟨hw, -⟩
  · have hs : s.mga.warmPending = true := hw ▸ hp
    exact ⟨t.warmReset_warmPending, hs, fun hm => by simp [hq hm] at hs, by
      rw [warmReset_mode, modeByLine, modeByLine, h.line]⟩
  · rw [hp] at hw
    cases hw

theorem replyEnds_eq (s : State) : s.replyEnds = s ∨ (∃ b, s.replyEnds = s.sendReply b) ∨
    (s.mga.warmPending = true ∧ s.replyEnds = s.warmReset) := by
  simp only [replyEnds]
  repeat' split
  · exact Or.inr (Or.inr ⟨by simp_all, rfl⟩)
  · exact Or.inr (Or.inl ⟨_, rfl⟩)
  · exact Or.inl rfl

theorem ModeMoved.replyEnds (hq : s.mode = .run → s.mga.warmPending = false) (h : ModeMoved s t) :
    ModeMoved s t.replyEnds := by
  rcases t.replyEnds_eq with he | ⟨b, he⟩ | ⟨hp, he⟩ <;> rw [he]
  · exact h
  · exact h.congr (by simp) (by simp [sendReply]) (by simp)
  · exact h.warmReset hq hp

theorem modeMoved_periodKept (hq : s.mode = .run → s.mga.warmPending = false) : PeriodKept (ModeMoved s) :=
  (modeMoved_blockKept s).periodKept (fun _ h => h.congr (by simp) (by simp) (by simp)) (fun _ h => h.replyEnds hq)
    (fun _ _ h => h.congr rfl rfl rfl) (fun _ _ h => h.congr rfl rfl rfl)

theorem finishPeriod_warmPending (s : State) : s.finishPeriod.mga.warmPending = s.mga.warmPending := by
  have k : BlockKept (fun t => t.mga.warmPending = s.mga.warmPending) := by
    constructor
    case toLatchKept =>
      refine ⟨⟨?record, ?raise, ?trip, ?effect, ?count, ?outside, ?freed⟩, ?countPort, ?cutPort⟩
      all_goals
        intros
        simpa
    all_goals
      intros
      simpa
  exact k.finishPeriod (fun _ _ h => h) rfl

/-- The clauses of R165 for the mode that a command leaves. -/
structure ModeRows (c : Option Instr) (s : State) (m : Mode) : Prop where
  enters : m = .run → s.mode = .run ∨ (s.mode = .standby ∧ c = some .start)
  trips : m = .tripped → s.mode = .tripped ∨ s.mode = .run
  rows : s.Settled → m = s.mode ∨ c = some .pinReset ∨
    (s.mode = .standby ∧ m = .run ∧ c = some .start) ∨ (s.mode = .run ∧ m = .standby ∧ c = some .stop) ∨
    (s.mode = .run ∧ m = .tripped) ∨
    (s.mode = .tripped ∧ m = .standby ∧ (c = some .clear ∨
      (s.mode ≠ .run ∧ s.mga.warmPending = true ∧ s.lines.safetyStopN = true))) ∨
    (s.mode = .safeStop ∧ m = .standby ∧ s.lines.safetyStopN = true ∧ (c = some .clear ∨
      (s.mode ≠ .run ∧ s.mga.warmPending = true ∧ s.lines.safetyStopN = true))) ∨
    (s.mode ≠ .safeStop ∧ m = .safeStop ∧ (c = some .safetyStopFall ∨
      (s.mode ≠ .run ∧ s.mga.warmPending = true ∧ s.lines.safetyStopN = false)))

variable {c : Option Instr}

theorem modeRows_of_mode {m : Mode} (hm : m = s.mode) : ModeRows c s m :=
  ⟨fun h => Or.inl (hm ▸ h), fun h => Or.inl (hm ▸ h), fun _ => Or.inl hm⟩

theorem ModeMoved.rows (h : ModeMoved s t) : ModeRows c s t.mode := by
  rcases h.moved with ⟨-, hm | ⟨hrun, hm⟩⟩ | ⟨-, hp, hs, hm⟩
  · exact modeRows_of_mode hm
  · exact ⟨fun h => Or.inl hrun, fun _ => Or.inr hrun, fun _ => by simp [hm, hrun]⟩
  · refine ⟨fun h => absurd (hm ▸ h) (modeByLine_ne_run s), fun h => absurd (hm ▸ h) (modeByLine_ne_tripped s), ?_⟩
    intro _
    cases hl : s.lines.safetyStopN <;> cases hmode : s.mode <;> simp_all [modeByLine]

/-- What takes place between period starts, once the one under way is finished. -/
theorem modeRows_between (hq : s.mode = .run → s.mga.warmPending = false) {f : State → State}
    (hf : ∀ u, ModeMoved s u → u.mga.warmPending = s.mga.warmPending → (s.Settled → u = s) → ModeRows c s (f u).mode) :
    ModeRows c s (s.between f).mode := by
  simp only [State.between, State.unlessHeld]
  split
  · exact hf _ ((modeMoved_periodKept hq).finishPeriod (ModeMoved.refl s)) s.finishPeriod_warmPending (fun h => h.finishPeriod_eq)
  · exact modeRows_of_mode rfl

/-- What leaves the mode as it is. -/
theorem modeRows_between_of_mode (hq : s.mode = .run → s.mga.warmPending = false) {f : State → State}
    (hf : ∀ u, (f u).mode = u.mode) : ModeRows c s (s.between f).mode :=
  modeRows_between hq (fun u h _ _ => by rw [hf]; exact h.rows)

theorem serve_mode (sel : Nat → Bool) {checks : State → MgtFrame → Option Reject}
    {effect : State → MgtFrame → State × List Byte} :
    (s.serve sel checks effect).mode = s.mode ∨
      ∃ f, checks s f = none ∧ (s.serve sel checks effect).mode = (effect s f).1.mode := by
  simp only [serve]
  repeat' split
  · exact Or.inl (by simp)
  · exact Or.inr ⟨_, ‹_›, by simp⟩
  all_goals exact Or.inl rfl

/-- A service whose effect leaves the mode as it is. -/
theorem serve_mode_of (sel : Nat → Bool) {checks : State → MgtFrame → Option Reject}
    {effect : State → MgtFrame → State × List Byte} (he : ∀ f, (effect s f).1.mode = s.mode) :
    (s.serve sel checks effect).mode = s.mode := by
  rcases s.serve_mode sel with h | ⟨f, -, h⟩
  · exact h
  · exact h.trans (he f)

theorem modeRows_unlessHeld {f : State → State} (hf : ModeMoved s (f s)) : ModeRows c s (s.unlessHeld f).mode := by
  simp only [State.unlessHeld]
  split
  · exact hf.rows
  · exact modeRows_of_mode rfl

theorem fallSafety_mode (s : State) : s.fallSafety.mode = .safeStop := by
  simp only [fallSafety]
  split
  case h_4 hm => exact hm
  all_goals rfl

theorem modeRows_safetyFall (s : State) :
    ModeRows (some .safetyStopFall) s s.safetyFall.mode := by
  simp only [safetyFall]
  repeat' split
  · exact modeRows_of_mode rfl
  · rw [fallSafety_mode]
    refine ⟨nofun, nofun, fun _ => ?_⟩
    by_cases hm : s.mode = .safeStop
    · exact Or.inl hm.symm
    · simp [hm]
  · exact modeRows_of_mode rfl

theorem modeRows_safetyRise (hq : s.mode = .run → s.mga.warmPending = false) : ModeRows c s s.safetyRise.mode := by
  simp only [safetyRise]
  repeat' split
  · exact modeRows_of_mode rfl
  · exact modeRows_of_mode rfl
  · exact ((modeMoved_periodKept hq).finishPeriod (ModeMoved.refl s)).rows (c := c)

theorem modeRows_start (hq : s.mode = .run → s.mga.warmPending = false) (t : State) (h : exec .start s = .next t) :
    ModeRows (some .start) s t.mode := by
  injection h with h
  subst h
  refine modeRows_between hq (fun u hu hw hs => ?_)
  rcases u.serve_mode (fun c => c == codeStart) (checks := State.checkStart)
    (effect := State.plain (fun u _ => u.startRun)) with he | ⟨f, hc, he⟩ <;> rw [he]
  · exact hu.rows
  · have hstandby := mode_of_checkStart hc
    have hmode : s.mode = .standby := by
      rcases hu.moved with ⟨-, hm | ⟨-, hm⟩⟩ | ⟨hf, hp, -⟩
      · exact hm ▸ hstandby
      · simp [hstandby] at hm
      · simp [hw, hp] at hf
    exact ⟨fun _ => Or.inr ⟨hmode, rfl⟩, nofun, fun _ => Or.inr (Or.inr (Or.inl ⟨hmode, rfl, rfl⟩))⟩

theorem mode_of_checkStop {f : MgtFrame} (hc : s.checkStop f = none) : s.mode = .run := by
  simp only [checkStop, firstReject_eq_none, List.mem_cons, List.not_mem_nil, or_false, forall_eq_or_imp, forall_eq,
    require_eq_none, beq_iff_eq] at hc
  exact hc.1

theorem modeRows_stop (hq : s.mode = .run → s.mga.warmPending = false) (t : State) (h : exec .stop s = .next t) :
    ModeRows (some .stop) s t.mode := by
  injection h with h
  subst h
  refine modeRows_between hq (fun u hu hw hs => ?_)
  rcases u.serve_mode (fun c => c == codeStop) (checks := State.checkStop)
    (effect := State.plain (fun u _ => u.departRun .standby)) with he | ⟨f, hc, he⟩ <;> rw [he]
  · exact hu.rows
  · refine ⟨nofun, nofun, fun h => ?_⟩
    have hm := mode_of_checkStop hc
    rw [hs h] at hm
    exact Or.inr (Or.inr (Or.inr (Or.inl ⟨hm, rfl, rfl⟩)))

theorem modeRows_clear (hq : s.mode = .run → s.mga.warmPending = false) (t : State) (h : exec .clear s = .next t) :
    ModeRows (some .clear) s t.mode := by
  injection h with h
  subst h
  refine modeRows_between hq (fun u hu hw hs => ?_)
  rcases u.serve_mode (fun c => c == codeClear) (checks := State.checkClear)
    (effect := State.plain (fun u _ => u.setMode .standby)) with he | ⟨f, hc, he⟩ <;> rw [he]
  · exact hu.rows
  · refine ⟨nofun, nofun, fun h => ?_⟩
    have hm := mode_of_checkClear hc
    rw [hs h] at hm
    rcases hm with hm | ⟨hm, hl⟩
    · simp [hm, plain]
    · simp [hm, hl, plain]

theorem ModeMoved.warmEffect (hq : s.mode = .run → s.mga.warmPending = false) (h : ModeMoved s t) :
    ModeMoved s t.warmEffect := by
  simp only [State.warmEffect]
  split
  · exact h.warmReset hq ‹_›
  · exact h

theorem modeRows_exec (hq : s.mode = .run → s.mga.warmPending = false) (c : Instr) (e : exec c s = .next t) :
    ModeRows (some c) s t.mode := by
  have k := modeMoved_periodKept hq
  have event (x : PsStep) (cond : State → Bool) :
      ModeRows (some c) s (s.unlessHeld (fun t => t.stepEvent x cond)).mode :=
    modeRows_unlessHeld (k.stepEvent (ModeMoved.refl s) x cond)
  cases c
  case start => exact modeRows_start hq t e
  case stop => exact modeRows_stop hq t e
  case clear => exact modeRows_clear hq t e
  all_goals
    injection e with e
    subst e
  case pinReset => exact ⟨nofun, nofun, fun _ => Or.inr (Or.inl rfl)⟩
  case resetNRise =>
    split
    · exact modeRows_of_mode rfl
    · rename_i hlow
      exact ⟨fun h => absurd h s.modeByLine_ne_run, fun h => absurd h s.modeByLine_ne_tripped,
        fun h => absurd h.running hlow⟩
  case periodStart ok order => exact modeRows_unlessHeld (k.periodStart (ModeMoved.refl s) ok order)
  case safetyStopFall => exact modeRows_safetyFall s
  case safetyStopRise => exact modeRows_safetyRise hq
  case refFrame f => exact modeRows_between_of_mode hq (fun u => by simp)
  case mgtFrame f =>
    refine modeRows_between_of_mode hq (fun u => ?_)
    simp only [arriveMgt]
    split <;> simp [badFrame]
  case badDownstreamFrame bytes =>
    refine modeRows_between_of_mode hq (fun u => ?_)
    simp only [arriveBytes]
    split <;> simp [badFrame]
  case stsFrame p a =>
    refine modeRows_unlessHeld (f := fun s => (if a.late ∧ s.ps.underWay = false then s else s.finishPeriod).receiveSts p
      a.bytes a.late) ?_
    refine (modeMoved_frameKept s).receiveSts ?_ p a.bytes a.late
    split
    · exact ModeMoved.refl s
    · exact k.finishPeriod (ModeMoved.refl s)
  case replySent => exact modeRows_between hq (fun _ hu _ _ => (hu.replyEnds hq).rows)
  case warmResetEffect => exact modeRows_between hq (fun _ hu _ _ => (hu.warmEffect hq).rows)
  case portLost p => exact modeRows_unlessHeld (k.portEvent (ModeMoved.refl s) p)
  case actuationIssue ok => exact modeRows_unlessHeld (k.issueEvent (ModeMoved.refl s) ok)
  case readTable | writeTable | commit | setConfig | warmReset | forceZero | release | relink | readLog | unknownRequest =>
    exact modeRows_between_of_mode hq (fun u => serve_mode_of _ (fun f => by simp [plain, reading]))
  all_goals exact event _ _

theorem modeRows_step (hq : s.mode = .run → s.mga.warmPending = false) (e : step s = .next t) :
    ModeRows s.pending.head? s t.mode := by
  simp only [step] at e
  split at e
  · rename_i hempty
    injection e with e
    subst e
    refine modeRows_unlessHeld ?_
    repeat' split
    · exact (modeMoved_periodKept hq).finishPeriod (ModeMoved.refl s)
    · exact (ModeMoved.refl s).congr rfl rfl rfl
    · exact (modeMoved_periodKept hq).periodStart (ModeMoved.refl s) _ _
  · rename_i c rest hc
    have h := modeRows_exec (s := { s with pending := rest }) hq c e
    rw [hc]
    exact ⟨h.enters, h.trips, fun hs => h.rows ⟨hs.running, hs.between, hs.taken⟩⟩

end State

/-- Settles O4: the law reads mode and sequencer alone, which few operations move; the gap count is kept under its
budget by the trip of the gap step; and outside the services and the lines a step moves the mode by a trip or by a
pending warm reset. -/
theorem stageLawKept : Obligations.StageLawKept := by
  refine ⟨fun _ _ h hstep => State.stageLaw_commandKept.step (fun _ _ h => h.congr rfl rfl) h hstep,
    fun s t hp hg hstep => ?_, fun s t hq hstep => ?_⟩
  · exact (State.episodeLaw_commandKept.step (fun _ _ h => h.congr rfl rfl rfl) ⟨hp, hg⟩ hstep).2
  · have h := State.modeRows_step hq.warm hstep
    exact ⟨h.enters, h.trips, h.rows⟩

end Sys2Proof.Machine

/-! ### Phase strings: membership, order, and renumbering (R7, R18) -/

namespace Sys2Proof.Machine

theorem phasePorts_nodup (x : Phase) : (phasePorts x).Nodup := State.allPorts_nodup.filter _

theorem mem_phasePorts {p : Port} {x : Phase} : p ∈ phasePorts x ↔ phaseOf p = x := by
  simp [phasePorts, State.mem_allPorts]

theorem sortPorts_perm (key : Port → Nat) (l : List Port) : (sortPorts key l).Perm l :=
  List.perm_insertionSort _ l

theorem sortPorts_pairwise (key : Port → Nat) (l : List Port) :
    (sortPorts key l).Pairwise (fun p q => key p ≤ key q) := by
  have htotal : Std.Total (fun p q : Port => key p ≤ key q) := ⟨fun _ _ => Nat.le_total _ _⟩
  have htrans : IsTrans Port (fun p q => key p ≤ key q) := ⟨fun _ _ _ => Nat.le_trans⟩
  exact List.pairwise_insertionSort _ l

/-- A key of 24 steps for each rank, and the port within it, tells any two ports apart. -/
theorem sortPorts_lt {rank : Port → Nat} {key : Port → Nat} (hk : ∀ p, key p = 24 * rank p + p.val) {l : List Port}
    (hd : l.Nodup) : (sortPorts key l).Pairwise (fun p q => key p < key q) := by
  have hs := (sortPorts_pairwise key l).and ((sortPorts_perm key l).nodup_iff.mpr hd)
  refine hs.imp (fun {p q} h => lt_of_le_of_ne h.1 (fun heq => h.2 ?_))
  rw [hk, hk] at heq
  exact Fin.ext (by omega)

namespace State

variable {s t : State} {x : Phase}

theorem mem_phaseString {p : Port} : p ∈ s.phaseString x ↔ phaseOf p = x ∧ (s.entry p).inString = true := by
  rw [phaseString, (sortPorts_perm _ _).mem_iff, List.mem_filter, mem_phasePorts]

theorem phaseString_nodup (s : State) (x : Phase) : (s.phaseString x).Nodup :=
  (sortPorts_perm _ _).nodup_iff.mpr ((phasePorts_nodup x).filter _)

theorem phaseString_pairwise (s : State) (x : Phase) :
    (s.phaseString x).Pairwise (fun p q => s.stringKey p < s.stringKey q) :=
  sortPorts_lt (fun _ => rfl) ((phasePorts_nodup x).filter _)

/-- The string is the one list of its cells in the order of the keys. -/
theorem phaseString_eq {l : List Port} (hm : ∀ p, p ∈ l ↔ phaseOf p = x ∧ (s.entry p).inString = true)
    (hs : l.Pairwise (fun p q => s.stringKey p < s.stringKey q)) : s.phaseString x = l := by
  have hirrefl : Std.Irrefl (fun p q : Port => s.stringKey p < s.stringKey q) := ⟨fun _ => Nat.lt_irrefl _⟩
  have hasymm : Std.Antisymm (fun p q : Port => s.stringKey p < s.stringKey q) :=
    ⟨fun _ _ h h' => absurd h' (Nat.lt_asymm h)⟩
  have htrans : IsTrans Port (fun p q => s.stringKey p < s.stringKey q) := ⟨fun _ _ _ => Nat.lt_trans⟩
  exact (s.phaseString_pairwise x).eq_of_mem_iff hs (fun p => by rw [mem_phaseString, hm])

theorem stringLength_eq (s : State) (x : Phase) :
    s.stringLength x = (phasePorts x).countP (fun p => (s.entry p).inString) := by
  rw [stringLength, phaseString, (sortPorts_perm _ _).length_eq, List.countP_eq_length_filter]

/-- The cells of a string hold the positions 0..N−1 in its order. -/
def Numbered (s : State) (x : Phase) : Prop :=
  (s.phaseString x).map (fun p => (s.entry p).position) = (List.range (s.stringLength x)).map some

/-- The string and its numbers are read off the roles and the positions. -/
theorem phaseString_congr (hr : ∀ p, phaseOf p = x → (t.entry p).inString = (s.entry p).inString)
    (hp : ∀ p, phaseOf p = x → (t.entry p).position = (s.entry p).position) : t.phaseString x = s.phaseString x := by
  refine phaseString_eq (fun p => ?_) ((s.phaseString_pairwise x).imp_of_mem (fun {p q} hpm hqm h => ?_))
  · rw [mem_phaseString]
    exact and_congr_right (fun hx => by rw [hr p hx])
  · rw [mem_phaseString] at hpm hqm
    rw [stringKey, stringKey, hp p hpm.1, hp q hqm.1]
    exact h

theorem Numbered.congr (h : s.Numbered x) (hr : ∀ p, phaseOf p = x → (t.entry p).inString = (s.entry p).inString)
    (hp : ∀ p, phaseOf p = x → (t.entry p).position = (s.entry p).position) : t.Numbered x := by
  have hstring := phaseString_congr hr hp
  rw [Numbered, stringLength, hstring]
  rw [Numbered, stringLength] at h
  rw [← h]
  exact List.map_congr_left (fun p hpm => hp p (mem_phaseString.mp hpm).1)

@[simp] theorem renumbered_inString (s : State) (p : Port) (e : RosterEntry) : (s.renumbered p e).inString = e.inString := by
  simp only [renumbered]
  split <;> rfl

theorem renumbered_eq (s : State) (p : Port) (e : RosterEntry) :
    s.renumbered p e = { e with position := (s.renumbered p e).position } := by
  simp only [renumbered]
  split <;> rfl

theorem renumbered_of_not_inString (s : State) (p : Port) {e : RosterEntry} (h : e.inString = false) :
    s.renumbered p e = e := by
  simp [renumbered, h]

theorem renumbered_position {p : Port} {e : RosterEntry} (h : e.inString = true) :
    (s.renumbered p e).position = some ((s.phaseString (phaseOf p)).idxOf p) := by
  simp [renumbered, h]

variable (hn : ∀ p, phaseOf p = x → t.entry p = s.renumbered p (s.entry p))
include hn

theorem position_of_renumbered {p : Port} (hp : p ∈ s.phaseString x) :
    (t.entry p).position = some ((s.phaseString x).idxOf p) := by
  obtain ⟨hx, hs⟩ := mem_phaseString.mp hp
  rw [hn p hx, renumbered_position hs, hx]

/-- R18: renumbering a string keeps its order. -/
theorem phaseString_of_renumbered : t.phaseString x = s.phaseString x := by
  refine phaseString_eq (fun p => ?_) (List.pairwise_iff_getElem.mpr (fun i j hi hj hij => ?_))
  · rw [mem_phaseString]
    exact and_congr_right (fun hx => by rw [hn p hx, renumbered_inString])
  · have key (k : Nat) (hk : k < (s.phaseString x).length) :
        t.stringKey (s.phaseString x)[k] = 24 * k + (s.phaseString x)[k].val := by
      rw [stringKey, position_of_renumbered hn (List.getElem_mem hk), (s.phaseString_nodup x).idxOf_getElem k hk]
      rfl
    rw [key, key]
    have := (s.phaseString x)[i].isLt
    omega

/-- R18: the renumbered cells hold the positions 0..N−1. -/
theorem numbered_of_renumbered : t.Numbered x := by
  rw [Numbered, stringLength, phaseString_of_renumbered hn]
  refine List.ext_getElem (by simp) (fun i hi _ => ?_)
  have hi : i < (s.phaseString x).length := by simpa using hi
  simp [position_of_renumbered hn (List.getElem_mem hi), (s.phaseString_nodup x).idxOf_getElem i hi]

omit hn

theorem renumber_entry (s : State) (p : Port) : s.renumber.entry p = s.renumbered p (s.entry p) := by
  simp [renumber]

theorem renumberPhase_entry (s : State) (x : Phase) (p : Port) :
    (s.renumberPhase x).entry p = if phaseOf p = x then s.renumbered p (s.entry p) else s.entry p := by
  simp [renumberPhase]

theorem renumber_phaseString (s : State) (x : Phase) : s.renumber.phaseString x = s.phaseString x :=
  phaseString_of_renumbered (fun p _ => s.renumber_entry p)

theorem renumber_numbered (s : State) (x : Phase) : s.renumber.Numbered x :=
  numbered_of_renumbered (fun p _ => s.renumber_entry p)

theorem renumberPhase_numbered (s : State) (x : Phase) : (s.renumberPhase x).Numbered x :=
  numbered_of_renumbered (s := s) (fun p hp => by rw [renumberPhase_entry, if_pos hp])

theorem renumberPhase_phaseString (s : State) (x y : Phase) : (s.renumberPhase x).phaseString y = s.phaseString y := by
  by_cases hxy : y = x
  · subst hxy
    exact phaseString_of_renumbered (fun p hp => by rw [renumberPhase_entry, if_pos hp])
  · have hother (p : Port) (hp : phaseOf p = y) : (s.renumberPhase x).entry p = s.entry p := by
      rw [renumberPhase_entry, if_neg (fun h => hxy (hp ▸ h))]
    exact phaseString_congr (fun p hp => by rw [hother p hp]) (fun p hp => by rw [hother p hp])

end State

end Sys2Proof.Machine

/-! ### The strings under the operations (R7, R8, R10, R17, R18) -/

namespace Sys2Proof.Machine

/-- Two entries that stand alike in their string: there or not, in the same place, ACTIVE or not. -/
structure SamePlace (e e' : RosterEntry) : Prop where
  string : e'.inString = e.inString
  position : e'.position = e.position
  active : e'.role = .active ↔ e.role = .active

theorem SamePlace.refl (e : RosterEntry) : SamePlace e e := ⟨rfl, rfl, Iff.rfl⟩

theorem SamePlace.trans {e e' e'' : RosterEntry} (h : SamePlace e e') (h' : SamePlace e' e'') : SamePlace e e'' :=
  ⟨h'.string.trans h.string, h'.position.trans h.position, h'.active.trans h.active⟩

theorem SamePlace.of_role {e e' : RosterEntry} (hr : e'.role = e.role) (hp : e'.position = e.position) : SamePlace e e' :=
  ⟨by simp only [RosterEntry.inString, hr], hp, by rw [hr]⟩

/-- The number of a phase's ports that meet a condition, as the size of a set. -/
theorem countP_phasePorts (x : Phase) (c : Port → Bool) :
    (phasePorts x).countP c = (Finset.univ.filter (fun p => phaseOf p = x ∧ c p = true)).card := by
  rw [List.countP_eq_length_filter, ← List.toFinset_card_of_nodup ((phasePorts_nodup x).filter _)]
  congr 1
  ext p
  simp [mem_phasePorts]

theorem countP_phasePorts_mono {x : Phase} {c d : Port → Bool} (h : ∀ p, phaseOf p = x → c p = true → d p = true) :
    (phasePorts x).countP c ≤ (phasePorts x).countP d :=
  List.countP_mono_left (fun p hp => h p (mem_phasePorts.mp hp))

namespace State

variable {s t u : State} {x : Phase}

/-- Every entry stands alike in its string. -/
def SamePlaces (s t : State) : Prop := ∀ p, SamePlace (s.entry p) (t.entry p)

theorem SamePlaces.trans (h : SamePlaces s t) (h' : SamePlaces t u) : SamePlaces s u := fun p => (h p).trans (h' p)

theorem samePlaces_of_roster (h : t.roster = s.roster) : SamePlaces s t := fun p => by
  simp only [entry, h]
  exact SamePlace.refl _

theorem SamePlaces.roster (h : SamePlaces s t) (hr : u.roster = t.roster) : SamePlaces s u :=
  h.trans (samePlaces_of_roster hr)

theorem samePlaces_updEntry (s : State) (p : Port) {f : RosterEntry → RosterEntry}
    (hf : SamePlace (s.entry p) (f (s.entry p))) : SamePlaces s (s.updEntry p f) := by
  intro q
  rw [updEntry_entry]
  split
  · subst_vars
    exact hf
  · exact SamePlace.refl _

theorem SamePlaces.updEntry (h : SamePlaces s t) (p : Port) {f : RosterEntry → RosterEntry}
    (hf : ∀ e, SamePlace e (f e)) : SamePlaces s (t.updEntry p f) := h.trans (t.samePlaces_updEntry p (hf _))

theorem samePlaces_foldl {α : Type} {f : State → α → State} (hf : ∀ s a, SamePlaces s (f s a)) (s : State) (l : List α) :
    SamePlaces s (l.foldl f s) :=
  foldl_keeps (P := SamePlaces s) (fun t a h => h.trans (hf t a)) l (fun _ => SamePlace.refl _)

theorem assignSpare_samePlaces (s : State) (p : Port) : SamePlaces s (s.assignSpare p) := by
  simp only [assignSpare]
  split
  · exact s.samePlaces_updEntry _ (SamePlace.of_role rfl rfl)
  · exact fun _ => SamePlace.refl _

theorem selectSpares_samePlaces (s : State) : SamePlaces s s.selectSpares := by
  simp only [selectSpares]
  split
  · exact samePlaces_foldl assignSpare_samePlaces _ _
  · exact fun _ => SamePlace.refl _

theorem reselect_samePlaces (s : State) : SamePlaces s s.reselect := by
  simp only [reselect]
  split
  · exact s.selectSpares_samePlaces
  · exact fun _ => SamePlace.refl _

theorem deselect_samePlaces (s : State) (p : Port) : SamePlaces s (s.deselect p) :=
  s.samePlaces_updEntry p (SamePlace.of_role rfl rfl)

theorem retireSpare_samePlaces (s : State) {p : Port} (hr : (s.entry p).role = .spare) : SamePlaces s (s.retireSpare p) := by
  have hretired : SamePlaces s (s.updEntry p (fun e => { e with role := .bypassed, insertionTarget := none })) :=
    s.samePlaces_updEntry p ⟨by simp [RosterEntry.inString, hr], rfl, by simp [hr]⟩
  simp only [retireSpare]
  split
  · exact hretired.trans (reselect_samePlaces _)
  · exact hretired

theorem openFailed_samePlaces (s : State) (p : Port) : SamePlaces s (s.openFailed p) := by
  simp only [openFailed]
  repeat' split
  · refine SamePlaces.roster (t := s.updEntry p (fun e => { e with
      insertionTarget := none, ineligible := e.ineligible || (s.link p).state != .lost })) ?_ (by simp)
    exact s.samePlaces_updEntry p (SamePlace.of_role rfl rfl)
  · exact samePlaces_of_roster (by simp)
  · exact samePlaces_of_roster (by simp)

theorem deemClosed_samePlaces (s : State) (p : Port) : SamePlaces s (s.deemClosed p) := by
  have hdeemed := s.samePlaces_updEntry p (f := fun e => { e with blind := true, bypassOrder := .closed })
    (SamePlace.of_role rfl rfl)
  simp only [deemClosed]
  split
  · exact hdeemed.trans (samePlaces_of_roster (by simp))
  · exact hdeemed

theorem issueStep_samePlaces (s : State) : SamePlaces s s.issueStep := by
  simp only [issueStep]
  split
  · refine SamePlaces.updEntry ?_ _ (fun _ => SamePlace.of_role rfl rfl)
    exact samePlaces_of_roster rfl
  · exact samePlaces_of_roster rfl

theorem leakStep_samePlaces (s : State) : SamePlaces s s.leakStep := by
  intro p
  simp only [leakStep]
  split
  · rw [mapEntries_entry]
    exact SamePlace.of_role rfl rfl
  · exact SamePlace.refl _

theorem selectStep_samePlaces (s : State) : SamePlaces s s.selectStep := by
  simp only [selectStep]
  split
  · refine SamePlaces.trans ?_ (reselect_samePlaces _)
    exact samePlaces_of_roster rfl
  · exact samePlaces_of_roster rfl

theorem confirmContact_samePlaces (s : State) (p : Port) (c : Contact) : SamePlaces s (s.confirmContact p c) := by
  have hfailed (t : State) (h : SamePlaces s t) : SamePlaces s (if (t.entry p).role = .failed ∧ c = .closed then
      t.updEntry p (fun e => { e with role := .bypassed }) else t) := by
    split
    · rename_i hfailed
      refine h.trans (t.samePlaces_updEntry p ⟨?_, rfl, ?_⟩) <;> simp [RosterEntry.inString, hfailed.1]
    · exact h
  refine hfailed _ ?_
  split <;> exact samePlaces_of_roster (by simp)

theorem countLatch_samePlaces (s : State) (l : Latch) (m : Mode) (st : Stage) (d : Nat) :
    SamePlaces s (s.countLatch l m st d) :=
  (s.samePlaces_updEntry l.port (f := fun e => { e with latchCount := saturate 255 e.latchCount })
    (SamePlace.of_role rfl rfl)).trans (samePlaces_of_roster (by simp [countLatch]))

/-- What a latch in RUN does to the strings: nothing, or its ACTIVE cell becomes ISOLATING in its place. -/
theorem latchEffect_samePlaces (s : State) (p : Port) : SamePlaces s (s.latchEffect p).1 ∨
    ((s.entry p).role = .active ∧ SamePlaces (s.makeIsolating p) (s.latchEffect p).1) := by
  have hjoined : SamePlaces (s.makeIsolating p) (s.makeIsolating p).stopSettle.selectSpares :=
    SamePlaces.trans (samePlaces_of_roster (by simp)) (selectSpares_samePlaces _)
  simp only [latchEffect]
  split
  case h_1 hactive =>
    split
    · exact Or.inl (fun _ => SamePlace.refl _)
    · simp only [latchActive, openEpisode, joinRecovery, pushBack]
      repeat' split
      case h_3 => exact Or.inl (s.samePlaces_updEntry p (SamePlace.of_role rfl rfl))
      all_goals
        refine Or.inr ⟨hactive, ?_⟩
        first
        | with_reducible exact hjoined
        | with_reducible exact samePlaces_of_roster (by simp)
  case h_2 hspare => exact Or.inl (s.retireSpare_samePlaces hspare)
  all_goals exact Or.inl (fun _ => SamePlace.refl _)

theorem SamePlaces.activeCount (h : SamePlaces s t) (x : Phase) : t.activeCount x = s.activeCount x := by
  simp only [State.activeCount, (h _).active]

theorem SamePlaces.phaseString (h : SamePlaces s t) (x : Phase) : t.phaseString x = s.phaseString x :=
  phaseString_congr (fun p _ => (h p).string) (fun p _ => (h p).position)

theorem activeCount_le (h : ∀ p, (t.entry p).role = .active → (s.entry p).role = .active) (x : Phase) :
    t.activeCount x ≤ s.activeCount x :=
  countP_phasePorts_mono (fun p _ hp => by simpa using h p (by simpa using hp))

theorem stringLength_le (h : ∀ p, (t.entry p).inString = true → (s.entry p).inString = true) (x : Phase) :
    t.stringLength x ≤ s.stringLength x := by
  rw [stringLength_eq, stringLength_eq]
  exact countP_phasePorts_mono (fun p _ => h p)

theorem activeCount_le_stringLength (s : State) (x : Phase) : s.activeCount x ≤ s.stringLength x := by
  rw [stringLength_eq]
  exact countP_phasePorts_mono (fun p _ hp => by simp_all [RosterEntry.inString])

theorem stringLength_eq_activeCount (h : ∀ p, (s.entry p).role ≠ .isolating) (x : Phase) :
    s.stringLength x = s.activeCount x := by
  refine Nat.le_antisymm ?_ (s.activeCount_le_stringLength x)
  rw [stringLength_eq]
  refine countP_phasePorts_mono (fun p _ hp => ?_)
  have hp' := h p
  cases hr : (s.entry p).role <;> simp_all [RosterEntry.inString]

/-! #### The law of the phase strings -/

theorem StringLaw.numbered (h : s.StringLaw) (hm : s.mode ≠ .standby) (x : Phase) : s.Numbered x := (h.positions hm x).2

theorem StringLaw.length (h : s.StringLaw) (hm : s.mode ≠ .standby) (x : Phase) : s.stringLength x ≤ s.settings.nNom :=
  (h.positions hm x).1

/-- Cells that keep their place, or leave ACTIVE in it, keep the law. -/
theorem StringLaw.keep (h : s.StringLaw) (hs : ∀ p, (t.entry p).inString = (s.entry p).inString)
    (hp : ∀ p, (t.entry p).position = (s.entry p).position)
    (ha : ∀ p, (t.entry p).role = .active → (s.entry p).role = .active) (hm : t.mode ≠ .standby → s.mode ≠ .standby)
    (hn : t.settings.nNom = s.settings.nNom) : t.StringLaw := by
  constructor
  · intro x
    rw [hn]
    exact (activeCount_le ha x).trans (h.active x)
  · intro ht x
    refine ⟨?_, Numbered.congr (h.numbered (hm ht) x) (fun p _ => hs p) (fun p _ => hp p)⟩
    rw [hn]
    exact (stringLength_le (fun p h => (hs p).symm ▸ h) x).trans (h.length (hm ht) x)

theorem StringLaw.places (h : s.StringLaw) (he : SamePlaces s t) (hm : t.mode ≠ .standby → s.mode ≠ .standby)
    (hn : t.settings.nNom = s.settings.nNom) : t.StringLaw :=
  h.keep (fun p => (he p).string) (fun p => (he p).position) (fun p => (he p).active.mp) hm hn

theorem StringLaw.congr (h : s.StringLaw) (hr : t.roster = s.roster) (hm : t.mode = s.mode)
    (hn : t.settings = s.settings) : t.StringLaw :=
  h.places (samePlaces_of_roster hr) (fun ht => hm ▸ ht) (by rw [hn])

theorem StringLaw.makeIsolating (h : s.StringLaw) {p : Port} (hr : (s.entry p).role = .active) :
    (s.makeIsolating p).StringLaw := by
  have he (q : Port) : (s.makeIsolating p).entry q =
      if p = q then { s.entry p with role := .isolating, deferred := false } else s.entry q := by
    simp [State.makeIsolating]
  refine h.keep (fun q => ?_) (fun q => ?_) (fun q => ?_) (fun hm => by simpa using hm) (by simp) <;> rw [he] <;> split
  · subst_vars
    simp [RosterEntry.inString, hr]
  · rfl
  · subst_vars
    rfl
  · rfl
  · simp
  · exact id

/-- Strings that are numbered, and no longer than their cells before were many, obey the law. -/
theorem stringLaw_of_numbered (hn : ∀ x, t.Numbered x) (hl : ∀ x, t.stringLength x ≤ t.settings.nNom) : t.StringLaw :=
  ⟨fun x => (t.activeCount_le_stringLength x).trans (hl x), fun _ x => ⟨hl x, hn x⟩⟩

/-- What compaction makes of an entry before the strings are renumbered stands in its string only if it did. -/
theorem compactedEntry_inString {p : Port} (h : (s.compactedEntry p (s.entry p)).inString = true) :
    (s.entry p).role = .active ∧ (s.entry p).deferred = false := by
  simp only [compactedEntry] at h
  split at h
  case h_1 hr =>
    split at h
    · simp [RosterEntry.inString] at h
    · rename_i hd
      exact ⟨hr, Bool.eq_false_iff.mpr hd⟩
  case h_2 => split at h <;> simp [RosterEntry.inString] at h
  all_goals simp_all [RosterEntry.inString]

theorem renumbered_congr {p : Port} (h : t.phaseString (phaseOf p) = s.phaseString (phaseOf p)) (e : RosterEntry) :
    t.renumbered p e = s.renumbered p e := by
  simp only [renumbered, h]

@[simp] theorem urgentBlock_entry (s : State) (p : Port) : s.urgentBlock.entry p = s.entry p := by
  simp [entry]

theorem urgentBlock_compactedEntry (s : State) (p : Port) (e : RosterEntry) :
    s.urgentBlock.compactedEntry p e = s.compactedEntry p e := by
  have hclosure : s.urgentBlock.closureOk p = s.closureOk p := by
    simp only [closureOk, closureConfirmed, queued, urgentBlock_entry, urgentBlock_frame]
  simp only [compactedEntry, hclosure]

/-- What a departure makes of an entry: compaction, and the place in the string that compaction leaves. -/
theorem departRun_entry (s : State) (m : Mode) (p : Port) :
    (s.departRun m).entry p = (s.mapEntries s.compactedEntry).renumbered p (s.compactedEntry p (s.entry p)) := by
  have he (q : Port) : (s.urgentBlock.mapEntries s.urgentBlock.compactedEntry).entry q =
      (s.mapEntries s.compactedEntry).entry q := by
    rw [mapEntries_entry, mapEntries_entry, urgentBlock_compactedEntry, urgentBlock_entry]
  have h : (s.departRun m).entry p = ((s.urgentBlock.mapEntries s.urgentBlock.compactedEntry).renumber).entry p := by
    simp [departRun, entry, compact]
  rw [h, renumber_entry, he, mapEntries_entry]
  exact renumbered_congr (phaseString_congr (fun q _ => by rw [he]) (fun q _ => by rw [he])) _

theorem departRun_numbered (s : State) (m : Mode) (x : Phase) : (s.departRun m).Numbered x :=
  numbered_of_renumbered (s := s.mapEntries s.compactedEntry) (fun p _ => by rw [departRun_entry, mapEntries_entry])

theorem departRun_inString {m : Mode} {p : Port} (h : ((s.departRun m).entry p).inString = true) :
    (s.entry p).role = .active ∧ (s.entry p).deferred = false := by
  rw [departRun_entry, renumbered_inString] at h
  exact compactedEntry_inString h

/-- R18: a departure leaves numbered strings of cells that were ACTIVE. -/
theorem StringLaw.departRun (h : s.StringLaw) (m : Mode) : (s.departRun m).StringLaw := by
  refine stringLaw_of_numbered (s.departRun_numbered m) (fun x => ?_)
  have hlength : (s.departRun m).stringLength x ≤ s.activeCount x := by
    rw [stringLength_eq]
    exact countP_phasePorts_mono (fun p _ hp => by simpa using (departRun_inString hp).1)
  simpa using hlength.trans (h.active x)

theorem StringLaw.requestTrip (h : s.StringLaw) (r : TripRequest) : (s.requestTrip r).StringLaw := by
  by_cases hm : s.mode = .run
  · rw [requestTrip_of_run hm]
    exact StringLaw.departRun (h.congr (by simp) (by simp) (by simp)) _
  · exact (requestTrip_of_not_run hm r).symm ▸ h

theorem StringLaw.latchEffect (h : s.StringLaw) (p : Port) : (s.latchEffect p).1.StringLaw := by
  rcases s.latchEffect_samePlaces p with he | ⟨hr, he⟩
  · exact h.places he (fun hm => by simpa using hm) (by simp)
  · exact (h.makeIsolating hr).places he (fun hm => by simpa using hm) (by simp)

/-- A phase renumbered after some of its cells have left it. -/
theorem StringLaw.renumberPhase (h : s.StringLaw) (y : Phase) (hs : ∀ p, (t.entry p).inString = true → (s.entry p).inString = true)
    (ho : ∀ p, phaseOf p ≠ y → (t.entry p) = (s.entry p)) (ha : ∀ p, (t.entry p).role = .active → (s.entry p).role = .active)
    (hm : t.mode = s.mode) (hn : t.settings = s.settings) : (t.renumberPhase y).StringLaw := by
  have hstring (p : Port) : ((t.renumberPhase y).entry p).inString = (t.entry p).inString := by
    rw [renumberPhase_entry]
    split <;> simp
  constructor
  · intro x
    have hsettings : (t.renumberPhase y).settings = s.settings := by simpa using hn
    rw [hsettings]
    refine (activeCount_le (fun p hp => ha p ?_) x).trans (h.active x)
    rw [renumberPhase_entry] at hp
    split at hp
    · rwa [renumbered_eq] at hp
    · exact hp
  · intro ht x
    have hmode : s.mode ≠ .standby := by simpa [hm] using ht
    refine ⟨?_, ?_⟩
    · have hsettings : (t.renumberPhase y).settings = s.settings := by simpa using hn
      rw [hsettings]
      exact (stringLength_le (fun p hp => hs p (hstring p ▸ hp)) x).trans (h.length hmode x)
    · by_cases hxy : x = y
      · exact hxy ▸ t.renumberPhase_numbered x
      · have hsame (p : Port) (hp : phaseOf p = x) : (t.renumberPhase y).entry p = s.entry p := by
          have hne : phaseOf p ≠ y := hp ▸ hxy
          rw [renumberPhase_entry, if_neg hne, ho p hne]
        exact Numbered.congr (h.numbered hmode x) (fun p hp => by rw [hsame p hp]) (fun p hp => by rw [hsame p hp])

theorem StringLaw.latchOutsideRun (h : s.StringLaw) (l : Latch) : (s.latchOutsideRun l).StringLaw := by
  have gone (f : RosterEntry → RosterEntry) (hf : (f (s.entry l.port)).inString = false) :
      ((s.updEntry l.port f).renumberPhase (phaseOf l.port)).StringLaw := by
    have hactive : (f (s.entry l.port)).role ≠ .active := fun hr => by simp [RosterEntry.inString, hr] at hf
    refine h.renumberPhase _ (fun p hp => ?_) (fun p hp => ?_) (fun p hp => ?_) (by simp) (by simp)
    · rw [updEntry_entry] at hp
      split at hp
      · rw [hf] at hp
        cases hp
      · exact hp
    · rw [updEntry_entry, if_neg (fun he : l.port = p => hp (he ▸ rfl))]
    · rw [updEntry_entry] at hp
      split at hp
      · exact absurd hp hactive
      · exact hp
  simp only [State.latchOutsideRun]
  split
  · exact (gone _ rfl).places (countLatch_samePlaces _ _ _ _ _) (fun hm => by simpa using hm) (by simp)
  · exact (gone _ rfl).places (countLatch_samePlaces _ _ _ _ _) (fun hm => by simpa using hm) (by simp)
  all_goals exact h

theorem stringLaw_latchKept : LatchKept StringLaw := by
  refine ⟨⟨?record, ?raise, ?trip, ?effect, ?count, ?outside, ?freed⟩, ?countPort, ?cutPort⟩
  case trip => exact fun _ r h => h.requestTrip r
  case effect => exact fun _ p _ h => h.latchEffect p
  case outside => exact fun _ l _ h => h.latchOutsideRun l
  case count => exact fun s l m st d h => h.places (s.countLatch_samePlaces l m st d) (fun hm => by simpa using hm) (by simp)
  case cutPort =>
    intro s p h
    have hcut : SamePlaces s (s.updEntry p (fun e => { e with contact := .unknown })) :=
      s.samePlaces_updEntry p (SamePlace.of_role rfl rfl)
    exact h.places (hcut.roster (by simp)) (fun hm => by simpa using hm) (by simp)
  case freed =>
    intro s p h
    exact h.places ((s.deselect_samePlaces p).trans (reselect_samePlaces _)) (fun hm => by simpa using hm) (by simp)
  all_goals
    intros
    exact StringLaw.congr ‹_› (by simp) (by simp) (by simp)

end State

end Sys2Proof.Machine

/-! ### The phase strings under every command (R7, R8, R17, R18) -/

namespace Sys2Proof.Machine

namespace State

variable {s t u : State} {x : Phase}

/-- R17: a rebuilt entry that is ACTIVE was ACTIVE, or is a spare that takes the place of the ISOLATING cell it names. -/
theorem rebuiltEntry_active {p : Port} (h : (s.rebuiltEntry p (s.entry p)).role = .active) :
    (s.entry p).role = .active ∨
      ∃ q, (s.entry p).insertionTarget = some q ∧ (s.entry q).role = .isolating ∧ (s.entry p).role = .spare := by
  simp only [rebuiltEntry] at h
  split at h
  · cases h
  · rename_i q hr hq
    split at h
    · rename_i hc
      simp only [Bool.and_eq_true, beq_iff_eq] at hc
      exact Or.inr ⟨q, hq, hc.2, hr⟩
    · exact Or.inl h
  · exact Or.inl h

theorem rebuild_entry (s : State) (p : Port) :
    s.rebuild.entry p = (s.mapEntries s.rebuiltEntry).renumbered p (s.rebuiltEntry p (s.entry p)) := by
  simp [rebuild, renumber_entry]

theorem rebuild_numbered (s : State) (x : Phase) : s.rebuild.Numbered x :=
  numbered_of_renumbered (s := s.mapEntries s.rebuiltEntry) (fun p _ => by rw [rebuild_entry, mapEntries_entry])

/-- The cell whose place a cell of the rebuilt string has: its own, or that of the cell it replaces. -/
def placeOf (s : State) (p : Port) : Port :=
  if (s.entry p).role = .active then p else (s.entry p).insertionTarget.getD p

/-- R17: a rebuilt string is no longer than the string before it, since each spare takes another cell's place. -/
theorem rebuild_length (h : s.RosterLaw) (hr : ∀ p, (s.rebuild.entry p).role ≠ .isolating) (x : Phase) :
    s.rebuild.stringLength x ≤ s.stringLength x := by
  have hactive (p : Port) (hp : (s.rebuild.entry p).role = .active) := by
    rw [rebuild_entry, renumbered_eq] at hp
    exact rebuiltEntry_active hp
  rw [stringLength_eq_activeCount hr, stringLength_eq, activeCount, countP_phasePorts, countP_phasePorts]
  refine Finset.card_le_card_of_injOn s.placeOf (fun p hp => ?_) (fun p hp q hq heq => ?_)
  · simp only [Finset.coe_filter, Finset.mem_univ, true_and, Set.mem_ofPred_eq, decide_eq_true_eq] at hp ⊢
    obtain ⟨hx, hp⟩ := hp
    rcases hactive p hp with ha | ⟨q, hq, hi, hs⟩
    · simp [placeOf, ha, hx, RosterEntry.inString]
    · have hplace : s.placeOf p = q := by simp [placeOf, hs, hq]
      rw [hplace, (h.targets p q hq).2]
      exact ⟨hx, by simp [RosterEntry.inString, hi]⟩
  · simp only [Finset.coe_filter, Finset.mem_univ, true_and, Set.mem_ofPred_eq, decide_eq_true_eq] at hp hq
    rcases hactive p hp.2 with ha | ⟨p', hp', hi, hs⟩ <;> rcases hactive q hq.2 with hb | ⟨q', hq', hj, hu⟩
    · simpa [placeOf, ha, hb] using heq
    · have heq : p = q' := by simpa [placeOf, ha, hu, hq'] using heq
      rw [← heq, ha] at hj
      cases hj
    · have heq : p' = q := by simpa [placeOf, hb, hs, hp'] using heq
      rw [heq, hb] at hi
      cases hi
    · have heq : p' = q' := by simpa [placeOf, hs, hu, hp', hq'] using heq
      exact h.distinct p q p' hp' (heq ▸ hq')

theorem StringLaw.rebuild (h : s.StringLaw) (hc : s.CellLaw) (hm : s.mode ≠ .standby) : s.rebuild.StringLaw := by
  have hr (p : Port) : (s.rebuild.entry p).role ≠ .isolating := by
    rw [rebuild_entry, renumbered_eq]
    exact (rebuiltEntry_law hc p).2.2
  refine stringLaw_of_numbered s.rebuild_numbered (fun x => ?_)
  simpa using (rebuild_length hc.1 hr x).trans (h.length hm x)

theorem deferredCells_role {p : Port} (hp : p ∈ s.deferredCells) : (s.entry p).role = .active := by
  have := (List.mem_filter.mp hp).2
  simp only [decide_eq_true_eq] at this
  exact this.1

theorem StringLaw.foldl_makeIsolating (h : s.StringLaw) {l : List Port} (hd : l.Nodup)
    (hl : ∀ p ∈ l, (s.entry p).role = .active) : (l.foldl State.makeIsolating s).StringLaw := by
  induction l generalizing s with
  | nil => exact h
  | cons p l ih =>
    rw [List.nodup_cons] at hd
    refine ih (h.makeIsolating (hl p List.mem_cons_self)) hd.2 (fun q hq => ?_)
    rw [makeIsolating_entry _ _ _ (fun hpq : p = q => hd.1 (hpq ▸ hq))]
    exact hl q (List.mem_cons_of_mem _ hq)

theorem StringLaw.acceptDeferred (h : s.StringLaw) : (s.acceptDeferred s.deferredCells).StringLaw := by
  have hisolated : (s.deferredCells.foldl State.makeIsolating s).StringLaw :=
    h.foldl_makeIsolating (allPorts_nodup.filter _) (fun p => deferredCells_role)
  simp only [State.acceptDeferred]
  repeat' split
  · exact hisolated.requestTrip _
  · exact hisolated.requestTrip _
  · exact StringLaw.congr hisolated (by simp) (by simp) (by simp)

theorem StringLaw.remapCompletion (h : s.StringLaw) (hc : s.CellLaw) (hm : s.mode = .run) :
    s.remapCompletion.StringLaw := by
  have hbuilt : s.rebuild.applyRecovery.StringLaw :=
    (h.rebuild hc (by simp [hm])).congr (by simp) (by simp) (by simp)
  simp only [State.remapCompletion]
  repeat' split
  · exact hbuilt.requestTrip _
  · exact hbuilt.congr (by simp [enterAlign]) (by simp [enterAlign]) (by simp [enterAlign])
  · exact hbuilt.acceptDeferred

theorem enterIsolate_samePlaces (s : State) : SamePlaces s s.enterIsolate := by
  simp only [enterIsolate]
  refine SamePlaces.trans ?_ (selectSpares_samePlaces _)
  exact samePlaces_of_roster rfl

theorem inhibitProgress_samePlaces (s : State) : SamePlaces s s.inhibitProgress := by
  simp only [inhibitProgress]
  repeat' split
  · exact samePlaces_of_roster rfl
  · refine SamePlaces.trans ?_ (enterIsolate_samePlaces _)
    exact samePlaces_of_roster rfl
  · exact samePlaces_of_roster rfl

theorem resumeProgress_roster (s : State) : s.resumeProgress.roster = s.roster := by
  simp only [resumeProgress, endResume]
  repeat' split
  all_goals simp

/-- But for REMAP completion, a stage progression leaves every cell in its place. -/
theorem stageProgress_samePlaces (hs : s.rsq.stage ≠ .remap) : SamePlaces s s.stageProgress := by
  simp only [stageProgress]
  split
  case h_4 => contradiction
  case h_2 => exact s.inhibitProgress_samePlaces
  case h_7 => exact samePlaces_of_roster s.resumeProgress_roster
  case h_1 => exact samePlaces_of_roster rfl
  all_goals split <;> exact samePlaces_of_roster rfl

theorem StringLaw.sequencerStep (h : s.StringLaw) (hc : s.CellLaw) : s.sequencerStep.StringLaw := by
  have hgap : s.gapStep.StringLaw := h.congr (by simp) (by simp) (by simp)
  have hcell : s.gapStep.CellLaw := hc.congr (by simp) (by simp) (by simp)
  simp only [State.sequencerStep]
  repeat' split
  · exact hgap.requestTrip _
  · rename_i hm _
    have hrun : s.gapStep.mode = .run := by simpa using hm
    by_cases hs : s.gapStep.rsq.stage = .remap
    · have he : s.gapStep.stageProgress = s.gapStep.remapCompletion := by simp only [State.stageProgress, hs]
      exact he ▸ hgap.remapCompletion hcell hrun
    · exact hgap.places (stageProgress_samePlaces hs) (fun _ => by rw [hrun]; decide) (by simp)
  · exact h

theorem StringLaw.closeFailed (h : s.StringLaw) (p : Port) : (s.closeFailed p).StringLaw := by
  have hraised : (s.raise .bypassFail).StringLaw := h.congr (by simp) (by simp) (by simp)
  simp only [State.closeFailed]
  split
  · exact hraised.requestTrip _
  · exact hraised

theorem StringLaw.failStep (h : s.StringLaw) : s.failStep.StringLaw := by
  have hretry (p : Port) : (s.setRetry p true).StringLaw := h.congr (by simp) (by simp) (by simp)
  have hdropped (p : Port) : (s.setRetry p true).dropHead.StringLaw := h.congr (by simp) (by simp) (by simp)
  simp only [State.failStep]
  repeat' split
  · rename_i a _ _ _ _
    exact ((hretry a.port).closeFailed a.port).congr (by simp) (by simp) (by simp)
  · rename_i a _ _ _ _
    exact (hdropped a.port).places (openFailed_samePlaces _ a.port) (fun hm => by simpa using hm) (by simp)
  all_goals exact h

theorem StringLaw.holdStep (h : s.StringLaw) : s.holdStep.StringLaw := by
  have hcounted : (s.updCli (fun c => { c with holdCount := s.holdAfter })).StringLaw := h.congr rfl rfl rfl
  simp only [State.holdStep]
  split
  · exact hcounted.requestTrip _
  · exact hcounted

theorem StringLaw.runStep (h : s.StringLaw) (hc : s.CellLaw) (y : PsStep) : (s.runStep y).StringLaw := by
  have moved (t : State) (he : SamePlaces s t) (hm : t.mode = s.mode) (hn : t.settings = s.settings) : t.StringLaw :=
    h.places he (fun ht => hm ▸ ht) (by rw [hn])
  cases y
  case hold => exact h.holdStep
  case fail => exact h.failStep
  case sequencer => exact h.sequencerStep hc
  case links => exact stringLaw_latchKept.linksStep h
  case window => exact stringLaw_latchKept.windowStep h
  case select => exact moved _ s.selectStep_samePlaces (by simp [State.runStep]) (by simp [State.runStep])
  case deem =>
    exact moved _ (samePlaces_foldl deemClosed_samePlaces _ _) (by simp [State.runStep]) (by simp [State.runStep])
  case leak => exact moved _ s.leakStep_samePlaces (by simp [State.runStep]) (by simp [State.runStep])
  case issue => exact moved _ s.issueStep_samePlaces (by simp [State.runStep]) (by simp [State.runStep])
  all_goals exact h.congr (by simp [State.runStep]) (by simp [State.runStep]) (by simp [State.runStep])

/-- The laws of the roster and of the strings. -/
def PlaceLaw (s : State) : Prop := s.CellLaw ∧ s.StringLaw

/-- What a warm reset makes of an entry: its marks are cleared, and its place renumbered where the line is low. -/
theorem warmReset_entry (s : State) (p : Port) : s.warmReset.entry p = warmEntry (s.warmMode.entry p) := by
  have hroster : s.warmReset.roster = (s.warmMode.mapEntries (fun _ e => warmEntry e)).roster := by
    simp [warmReset]
  rw [entry, hroster, ← entry, mapEntries_entry]

theorem warmMode_entry (s : State) (p : Port) : s.warmMode.entry p =
    if s.modeByLine = .safeStop ∧ s.mode ≠ .safeStop then s.renumbered p (s.entry p) else s.entry p := by
  simp only [warmMode]
  split
  · rw [setMode_entry, renumber_entry, urgentBlock_entry]
    exact renumbered_congr (phaseString_congr (fun q _ => by rw [urgentBlock_entry]) (fun q _ => by rw [urgentBlock_entry])) _
  · rw [setMode_entry]

theorem warmEntry_samePlace (e : RosterEntry) : SamePlace e (warmEntry e) := SamePlace.of_role rfl rfl

/-- R18: without ISOLATING cells a renumbering obeys the law in whichever mode follows. -/
theorem StringLaw.renumber (h : s.StringLaw) (hq : ∀ p, (s.entry p).role ≠ .isolating) (m : Mode) :
    (s.renumber.setMode m).StringLaw := by
  have hroster : SamePlaces s.renumber (s.renumber.setMode m) := samePlaces_of_roster rfl
  refine stringLaw_of_numbered
    (fun x => Numbered.congr (s.renumber_numbered x) (fun p _ => (hroster p).string) (fun p _ => (hroster p).position))
    (fun x => ?_)
  rw [stringLength, hroster.phaseString, renumber_phaseString]
  simpa [stringLength] using (stringLength_eq_activeCount hq x).le.trans (h.active x)

theorem StringLaw.warmReset (h : s.StringLaw) (hc : s.CellLaw) (hm : s.mode ≠ .run) : s.warmReset.StringLaw := by
  by_cases hlow : s.modeByLine = .safeStop ∧ s.mode ≠ .safeStop
  · have hplaces : SamePlaces (s.renumber.setMode .safeStop) s.warmReset := fun p => by
      rw [warmReset_entry, warmMode_entry, if_pos hlow, setMode_entry, renumber_entry]
      exact warmEntry_samePlace _
    exact (h.renumber (fun p => (hc.2.quiet hm p).1) .safeStop).places hplaces (fun _ => by simp) (by simp)
  · have hplaces : SamePlaces s s.warmReset := fun p => by
      rw [warmReset_entry, warmMode_entry, if_neg hlow]
      exact warmEntry_samePlace _
    refine h.places hplaces (fun ht hs => ?_) (by simp)
    rw [warmReset_mode] at ht
    have hsafe : s.modeByLine = .safeStop := by
      simp only [modeByLine] at ht ⊢
      split at ht
      · exact absurd rfl ht
      · exact if_neg ‹_›
    exact hlow ⟨hsafe, by simp [hs]⟩

end State

end Sys2Proof.Machine

/-! ### The law of the phase strings under the commands -/

namespace Sys2Proof.Machine

namespace State

variable {s t u : State} {x : Phase}

theorem phaseString_nil_of_absent (h : ∀ p, (s.entry p).inString = false) (x : Phase) : s.phaseString x = [] :=
  List.eq_nil_iff_forall_not_mem.mpr (fun p hp => by simpa [h p] using (mem_phaseString.mp hp).2)

theorem stringLaw_of_absent (h : ∀ p, (s.entry p).inString = false) : s.StringLaw :=
  stringLaw_of_numbered (fun x => by simp [Numbered, stringLength, phaseString_nil_of_absent h])
    (fun x => by simp [stringLength, phaseString_nil_of_absent h])

@[simp] theorem keepMoments_entry (s t : State) (p : Port) : (s.keepMoments t).entry p = t.entry p := by
  simp [keepMoments]

@[simp] theorem pinReset_entry (s : State) (p : Port) : s.pinReset.entry p = RosterEntry.afterPin := by
  rw [pinReset, keepMoments_entry]
  simp [entry, atPinReset]

@[simp] theorem riseReset_entry (s : State) (p : Port) : s.riseReset.entry p = RosterEntry.afterPin := by
  rw [riseReset, keepMoments_entry, setMode_entry]
  simp [entry, atPinReset]

theorem StringLaw.fallSafety (h : s.StringLaw) (hc : s.CellLaw) : s.fallSafety.StringLaw := by
  have hrecorded (e : LogEntry) : ((s.setLines { s.lines with safetyStopN := false }).writeLog e).StringLaw :=
    h.congr (by simp) (by simp) (by simp)
  simp only [State.fallSafety]
  split
  case h_1 => exact (hrecorded _).departRun _
  case h_2 hm =>
    let e := (s.setLines { s.lines with safetyStopN := false }).entryNow .safetyStop none
    refine StringLaw.congr ((hrecorded e).renumber (fun p => ?_) .safeStop) (by simp [e]) (by simp) (by simp)
    have he (e : LogEntry) : ((s.setLines { s.lines with safetyStopN := false }).writeLog e).entry p = s.entry p := by
      simp [entry]
    rw [he]
    exact (hc.2.quiet (by simp [hm]) p).1
  case h_3 hm =>
    exact h.places (samePlaces_of_roster (by simp)) (fun _ => by simp [hm]) (by simp)
  case h_4 => exact h.congr rfl rfl rfl

theorem StringLaw.startRun (h : s.StringLaw) (hc : s.CellLaw) (hm : s.mode = .standby) : s.startRun.StringLaw := by
  refine StringLaw.congr (h.renumber (fun p => (hc.2.quiet (by simp [hm]) p).1) .run) ?_ ?_ ?_ <;> simp [State.startRun]

theorem stringLaw_setSettings {f : MgtFrame} (hc : s.checkSetConfig f = none) :
    (s.setSettings (settingsAt f.payload)).StringLaw := by
  simp only [checkSetConfig, firstReject_eq_none, List.mem_cons, List.not_mem_nil, or_false, forall_eq_or_imp, forall_eq,
    require_eq_none, beq_iff_eq, checkNominal, Option.map_eq_none_iff, firstFailure_eq_none, Phase.list, List.map_cons,
    List.map_nil, decide_eq_true_eq] at hc
  obtain ⟨hstandby, -, -, ha, hb, hcount⟩ := hc
  refine ⟨fun x => ?_, fun hm => absurd hstandby hm⟩
  cases x
  exacts [ha, hb, hcount]

/-- R19, R152: a roster write that passes its checks is served in STANDBY, with every entry valid. -/
theorem rosterEntryOk_of_checkWriteTable {f : MgtFrame} (hc : s.checkWriteTable f = none)
    (ht : tableOf f = some .roster) : s.mode = .standby ∧ ∀ p, s.rosterEntryOk f p = true := by
  simp only [checkWriteTable, firstReject_eq_none, List.mem_cons, List.not_mem_nil, or_false, forall_eq_or_imp,
    forall_eq, require_eq_none, ht, bne_self_eq_false, Bool.false_or, beq_iff_eq, checkEntries,
    Option.map_eq_none_iff, List.find?_eq_none, List.mem_range] at hc
  obtain ⟨-, hstandby, -, -, hentries⟩ := hc
  refine ⟨hstandby, fun p => ?_⟩
  by_cases hcovers : byteOr f.payload 1 ≤ p.val ∧ p.val < byteOr f.payload 1 + writeCount f
  · have hoffset : byteOr f.payload 1 + (p.val - byteOr f.payload 1) = p.val := by omega
    simpa [writeEntryOk, hoffset, p.isLt] using hentries (p.val - byteOr f.payload 1) (by omega)
  · have hnone : rosterWriteFor f p = none := by rw [rosterWriteFor, if_neg hcovers]
    simp [rosterEntryOk, hnone]

theorem writeRoster_entry (s : State) (f : MgtFrame) (p : Port) : (s.writeRoster f).entry p =
    match rosterWriteFor f p with
    | some w => writtenEntry w (s.entry p)
    | none => s.entry p := by
  rw [writeRoster, mapEntries_entry, mapLinks_entry] <;> rfl

/-- A valid write entry leaves its cell ACTIVE exactly where it says so. -/
theorem writeRoster_active {f : MgtFrame} {p : Port} (hok : s.rosterEntryOk f p = true) :
    ((s.writeRoster f).entry p).role = .active ↔ s.activeAfterWrite f p = true := by
  rw [writeRoster_entry, activeAfterWrite]
  rw [rosterEntryOk] at hok
  cases hw : rosterWriteFor f p with
  | none => simp
  | some w =>
    rw [hw] at hok
    cases hr : w.role with
    | none => simp [rosterWriteOk, hr] at hok
    | some r => simp [writtenEntry, hr]

/-- R19: a phase holds no more ACTIVE cells than N_nom once a valid write is stored. -/
theorem writeRoster_activeCount {f : MgtFrame} (hok : ∀ p, s.rosterEntryOk f p = true)
    (h : s.activeCount x ≤ s.settings.nNom) : (s.writeRoster f).activeCount x ≤ s.settings.nNom := by
  have hcount : (s.writeRoster f).activeCount x = (phasePorts x).countP (s.activeAfterWrite f) := by
    simp only [activeCount, writeRoster_active (hok _), Bool.decide_eq_true]
  rw [hcount]
  by_cases hw : ∃ p w, phaseOf p = x ∧ rosterWriteFor f p = some w ∧ w.role = some .active
  · obtain ⟨p, w, rfl, hw, hr⟩ := hw
    have := hok p
    simp only [rosterEntryOk, hw, hr, bne_self_eq_false, Bool.false_or, Bool.and_eq_true, decide_eq_true_eq] at this
    exact this.2
  · refine (countP_phasePorts_mono (fun p hp ha => ?_)).trans h
    simp only [activeAfterWrite] at ha
    split at ha
    · rename_i w hw'
      exact absurd ⟨p, w, hp, hw', by simpa using ha⟩ hw
    · simpa using ha

theorem StringLaw.writeStore (h : s.StringLaw) {f : MgtFrame} (hc : s.checkWriteTable f = none) :
    (s.writeStore f).StringLaw := by
  simp only [State.writeStore]
  split
  case h_1 ht =>
    obtain ⟨hstandby, hok⟩ := rosterEntryOk_of_checkWriteTable hc ht
    refine ⟨fun x => ?_, fun hm => absurd hstandby (by simpa using hm)⟩
    simpa using writeRoster_activeCount hok (h.active x)
  all_goals exact h.congr rfl rfl rfl

theorem recordStatus_samePlaces (s : State) (p : Port) (f : StsFrame) : SamePlaces s (s.recordStatus p f) :=
  s.samePlaces_updEntry p (SamePlace.of_role rfl rfl)

theorem noteWord_samePlaces (s : State) (p : Port) : SamePlaces s (s.noteWord p) := by
  have hnoted : SamePlaces s (s.updEntry p (fun e => { e with noteCount := saturate 65535 e.noteCount })) :=
    s.samePlaces_updEntry p (SamePlace.of_role rfl rfl)
  exact hnoted.roster (by simp [noteWord])

theorem stringLaw_frameKept : FrameKept StringLaw := by
  have moved {s t : State} (h : s.StringLaw) (he : SamePlaces s t) (hm : t.mode = s.mode)
    (hn : t.settings = s.settings) : t.StringLaw := h.places he (fun ht => hm ▸ ht) (by rw [hn])
  constructor
  case toLatchKept => exact stringLaw_latchKept
  case status => exact fun s p f h => moved h (s.recordStatus_samePlaces p f) (by simp) (by simp)
  case confirm => exact fun s p c h => moved h (s.confirmContact_samePlaces p c) (by simp) (by simp)
  case note => exact fun s p h => moved h (s.noteWord_samePlaces p) (by simp) (by simp)
  case bucket => exact fun s p n h => moved h (s.samePlaces_updEntry p (SamePlace.of_role rfl rfl)) (by simp) (by simp)
  all_goals
    intros
    exact StringLaw.congr ‹_› (by simp) (by simp) (by simp)

theorem PlaceLaw.congr (h : s.PlaceLaw) (hr : t.roster = s.roster) (hm : t.mode = s.mode)
    (hw : t.mga.warmPending = s.mga.warmPending) (hn : t.settings = s.settings) : t.PlaceLaw :=
  ⟨h.1.congr hr hm hw, h.2.congr hr hm hn⟩

theorem PlaceLaw.warmReset (h : s.PlaceLaw) (hp : s.mga.warmPending = true) : s.warmReset.PlaceLaw :=
  ⟨h.1.warmReset hp, h.2.warmReset h.1 (fun hm => by simp [h.1.2.warm hm] at hp)⟩

theorem placeLaw_periodKept : PeriodKept PlaceLaw where
  record _ _ h := h.congr rfl rfl rfl rfl
  run s y h := ⟨cellLaw_periodKept.run s y h.1, h.2.runStep h.1 y⟩
  opening _ h := h.congr (by simp) (by simp) (by simp) (by simp)
  replies s h := by
    rcases s.replyEnds_eq with he | ⟨b, he⟩ | ⟨hp, he⟩ <;> rw [he]
    · exact h
    · exact h.congr (by simp) (by simp) (by simp [sendReply]) (by simp)
    · exact h.warmReset hp
  supply _ _ h := h.congr rfl rfl rfl rfl
  judge _ p h := ⟨h.1.judgePort p, stringLaw_latchKept.judgePort h.2 p⟩
  latch _ l h := ⟨h.1.takeLatch l, stringLaw_latchKept.takeLatch h.2 l⟩
  handed _ _ h := h.congr rfl rfl rfl rfl

theorem cellLaw_of_absent (h : ∀ p, s.entry p = RosterEntry.afterPin) (hw : s.mga.warmPending = false) : s.CellLaw := by
  refine ⟨⟨fun p => ?_, fun p q hq => ?_, fun p p' q hq => ?_⟩, fun _ p => ?_, fun _ => hw⟩
  · rw [h]
    constructor <;> simp [RosterEntry.afterPin, RosterEntry.inString]
  · rw [h] at hq
    cases hq
  · rw [h] at hq
    cases hq
  · rw [h]
    exact ⟨by simp [RosterEntry.afterPin], rfl⟩

theorem placeLaw_of_absent (h : ∀ p, s.entry p = RosterEntry.afterPin) (hw : s.mga.warmPending = false) : s.PlaceLaw :=
  ⟨cellLaw_of_absent h hw, stringLaw_of_absent (fun p => by rw [h]; rfl)⟩

theorem commitStore_warmPending (s : State) (f : MgtFrame) : (s.commitStore f).mga.warmPending = s.mga.warmPending := by
  simp only [commitStore]
  repeat' split
  all_goals simp

theorem receiveMgt_warmPending (s : State) (f : MgtFrame) : (s.receiveMgt f).mga.warmPending = s.mga.warmPending := by
  simp only [receiveMgt, placeRequest]
  repeat' split
  all_goals simp

theorem mode_of_checkWarmReset {f : MgtFrame} (hc : s.checkWarmReset f = none) : s.mode ≠ .run := by
  simp only [checkWarmReset, firstReject_eq_none, List.mem_cons, List.not_mem_nil, or_false, forall_eq_or_imp, forall_eq,
    require_eq_none, bne_iff_ne] at hc
  exact hc.1

theorem answer_warmPending (s : State) (b : Fin 2) (f : MgtFrame) (v : Verdict) :
    (s.answer b f v).mga.warmPending = s.mga.warmPending := by
  simp [answer]

theorem cellLaw_commandKept : CommandKept CellLaw := by
  constructor
  case period => exact cellLaw_periodKept
  case pinReset => exact fun s _ => cellLaw_of_absent s.pinReset_entry rfl
  case riseReset => exact fun s _ => cellLaw_of_absent s.riseReset_entry rfl
  case fall => exact fun _ h => h.fallSafety
  case mgt => exact fun s f h => h.congr (by simp) (by simp) (s.receiveMgt_warmPending f)
  case answer => exact fun s b f v h => h.congr (by simp) (by simp) (s.answer_warmPending b f v)
  case sts => exact fun _ p bytes late h => h.receiveSts p bytes late
  case warm => exact fun _ h hp => h.warmReset hp
  case write => exact fun _ f h hc => h.writeStore f hc
  case commit => exact fun s f h => h.congr (by simp) (by simp) (s.commitStore_warmPending f)
  case config => exact fun _ f h hc => h.congr rfl rfl rfl
  case start => exact fun _ _ h hp _ => h.startRun hp
  case stop => exact fun _ h => departRun_cellLaw h.1 _ (by decide)
  case clear =>
    intro s f h hc
    refine h.setMode _ ?_ (by decide)
    rcases mode_of_checkClear hc with hm | ⟨hm, -⟩ <;> simp [hm]
  case warmMark =>
    intro s f h hc
    have hm := mode_of_checkWarmReset hc
    exact h.remode rfl (fun _ => hm) (fun hr => absurd hr hm)
  all_goals
    intros
    exact CellLaw.congr ‹_› (by simp [setSafety, badFrame]) (by simp [setSafety, badFrame])
      (by simp [setSafety, badFrame])

theorem placeLaw_commandKept : CommandKept PlaceLaw := by
  have k := cellLaw_commandKept
  have same {s t : State} (h : s.PlaceLaw) (hc : t.CellLaw) (hr : t.roster = s.roster) (hm : t.mode = s.mode)
    (hn : t.settings = s.settings) : t.PlaceLaw := ⟨hc, h.2.congr hr hm hn⟩
  constructor
  case period => exact placeLaw_periodKept
  case pinReset => exact fun s _ => placeLaw_of_absent s.pinReset_entry rfl
  case riseReset => exact fun s _ => placeLaw_of_absent s.riseReset_entry rfl
  case fall => exact fun _ h => ⟨h.1.fallSafety, h.2.fallSafety h.1⟩
  case sts =>
    exact fun _ p bytes late h => ⟨h.1.receiveSts p bytes late, stringLaw_frameKept.receiveSts h.2 p bytes late⟩
  case warm => exact fun _ h hp => h.warmReset hp
  case write => exact fun s f h hc => ⟨k.write s f h.1 hc, h.2.writeStore hc⟩
  case config => exact fun s f h hc => ⟨k.config s f h.1 hc, stringLaw_setSettings hc⟩
  case start => exact fun s f h hp hc => ⟨k.start s f h.1 hp hc, h.2.startRun h.1 (mode_of_checkStart hc)⟩
  case stop => exact fun s h => ⟨k.stop s h.1, h.2.departRun _⟩
  case clear =>
    exact fun s f h hc => ⟨k.clear s f h.1 hc, h.2.places (samePlaces_of_roster rfl) (fun ht => absurd rfl ht) rfl⟩
  case warmMark => exact fun s f h hc => same h (k.warmMark s f h.1 hc) rfl rfl rfl
  case safety => exact fun s high h => same h (k.safety s high h.1) rfl rfl rfl
  case tick => exact fun s h hlt => same h (k.tick s h.1 hlt) rfl rfl rfl
  case ref => exact fun s f h => same h (k.ref s f h.1) (by simp) (by simp) (by simp)
  case mgt => exact fun s f h => same h (k.mgt s f h.1) (by simp) (by simp) (by simp)
  case bad => exact fun s h => same h (k.bad s h.1) rfl rfl rfl
  case answer => exact fun s b f v h => same h (k.answer s b f v h.1) (by simp) (by simp) (by simp)
  case commit => exact fun s f h => same h (k.commit s f h.1) (by simp) (by simp) (by simp)
  case force => exact fun s f h => same h (k.force s f h.1) (by simp) (by simp) (by simp)
  case release => exact fun s f h => same h (k.release s f h.1) (by simp) (by simp) (by simp)
  case relink => exact fun s f h => same h (k.relink s f h.1) (by simp) (by simp) (by simp)

end State

end Sys2Proof.Machine

/-! ### The entry in use (R8, R26, R74) -/

namespace Sys2Proof.Machine

theorem rebalIndex_eq_some_iff {d : Tri Nat} {i : Fin 64} :
    rebalIndex d = some i ↔ (d.a ≤ 3 ∧ d.b ≤ 3 ∧ d.c ≤ 3) ∧ i.val = d.a * 16 + d.b * 4 + d.c := by
  simp only [rebalIndex]
  split
  · rename_i h
    simp [h, Fin.ext_iff, eq_comm]
  · rename_i h
    simp only [reduceCtorEq, false_iff]
    exact fun hi => h hi.1

/-- R26, R74: the lookup finds an entry where the tuple has an index, the entry's mark is yes, and the index encodes no
deficit as large as N_nom. -/
theorem rebalLookup_eq_some_iff {n : Nat} {bank : Vector RebalEntry 64} {d : Tri Nat} {i : Fin 64} :
    rebalLookup n bank d = some i ↔
      rebalIndex d = some i ∧ bank[i.val].valid = true ∧ d.a < n ∧ d.b < n ∧ d.c < n := by
  rw [rebalLookup, Option.filter_eq_some_iff]
  refine and_congr_right (fun h => ?_)
  obtain ⟨⟨ha, hb, hc⟩, hi⟩ := rebalIndex_eq_some_iff.mp h
  have hfields : i.val / 16 = d.a ∧ i.val / 4 % 4 = d.b ∧ i.val % 4 = d.c := by omega
  simp [rebalValid, hfields]

theorem rebalLookup_isSome_iff {n : Nat} {bank : Vector RebalEntry 64} {d : Tri Nat} :
    (rebalLookup n bank d).isSome = true ↔ (d.a ≤ 3 ∧ d.b ≤ 3 ∧ d.c ≤ 3) ∧
      ((bank[d.a * 16 + d.b * 4 + d.c]?).map RebalEntry.valid).getD false = true ∧ d.a < n ∧ d.b < n ∧ d.c < n := by
  rw [Option.isSome_iff_exists]
  simp only [rebalLookup_eq_some_iff, rebalIndex_eq_some_iff]
  refine ⟨?_, fun ⟨hd, hv, hn⟩ => ?_⟩
  · rintro ⟨i, ⟨hd, hi⟩, hv, hn⟩
    refine ⟨hd, ?_, hn⟩
    rw [← hi, Vector.getElem?_eq_getElem i.isLt]
    exact hv
  · have hlt : d.a * 16 + d.b * 4 + d.c < 64 := by omega
    refine ⟨⟨_, hlt⟩, ⟨hd, rfl⟩, ?_, hn⟩
    rw [Vector.getElem?_eq_getElem hlt] at hv
    exact hv

namespace State

variable {s t u : State}

/-- Every deficit is one that the table can serve, and the active entry of the tuple is valid. -/
def Usable (s : State) : Prop :=
  (∀ x, s.deficit x ≤ 3 ∧ s.deficit x < s.settings.nNom) ∧
    (s.rebalActive[s.deficit .a * 16 + s.deficit .b * 4 + s.deficit .c]?).map (fun e => e.valid) = some true

theorem usable_of_lookup (h : (rebalLookup s.settings.nNom s.rebalActive s.deficits).isSome = true) : s.Usable := by
  obtain ⟨⟨ha, hb, hc⟩, hv, hna, hnb, hnc⟩ := rebalLookup_isSome_iff.mp h
  refine ⟨fun x => ?_, ?_⟩
  · cases x
    exacts [⟨ha, hna⟩, ⟨hb, hnb⟩, ⟨hc, hnc⟩]
  · cases he : (s.rebalActive[s.deficit .a * 16 + s.deficit .b * 4 + s.deficit .c]?).map (fun e => e.valid) with
    | none => exact absurd (hv.symm.trans (congrArg (Option.getD · false) he)) (by decide)
    | some v => exact congrArg some ((congrArg (Option.getD · false) he).symm.trans hv)

theorem Usable.places (h : s.Usable) (he : SamePlaces s t) (hb : t.rebalActive = s.rebalActive)
    (hn : t.settings = s.settings) : t.Usable := by
  have hdeficit (x : Phase) : t.deficit x = s.deficit x := by rw [deficit, deficit, hn, he.activeCount]
  simp only [Usable, hdeficit, hb, hn]
  exact h

/-- The stages in which the entry is used, or is to be used next. -/
def UsesEntry (s : State) : Prop :=
  s.rsq.stage = .align ∨ s.rsq.stage = .awaitGrant ∨ s.rsq.stage = .resume ∨ s.rsq.stage = .normal

theorem entryLaw_of_usable (h : s.mode = .run → s.UsesEntry → s.Usable) : s.EntryLaw := ⟨h⟩

theorem entryLaw_of_mode (h : s.mode ≠ .run) : s.EntryLaw := ⟨fun hm => absurd hm h⟩

theorem entryLaw_of_stage (h : s.rsq.stage = .inhibit ∨ s.rsq.stage = .isolate ∨ s.rsq.stage = .remap) : s.EntryLaw := by
  refine ⟨fun _ hs => ?_⟩
  rcases h with h | h | h <;> simp [h] at hs

/-- A state whose cells stand in their places, with the bank and the record, and whose stage used the entry before. -/
theorem EntryLaw.places (h : s.EntryLaw) (he : SamePlaces s t) (hm : t.mode = .run → s.mode = .run)
    (hs : t.mode = .run → t.UsesEntry → s.UsesEntry) (hb : t.rebalActive = s.rebalActive)
    (hn : t.settings = s.settings) : t.EntryLaw :=
  ⟨fun hrun hstage => Usable.places (h.usable (hm hrun) (hs hrun hstage)) he hb hn⟩

theorem EntryLaw.same (h : s.EntryLaw) (he : SamePlaces s t) (hm : t.mode = s.mode) (hs : t.rsq = s.rsq)
    (hb : t.rebalActive = s.rebalActive) (hn : t.settings = s.settings) : t.EntryLaw :=
  h.places he (fun ht => hm ▸ ht) (fun _ ht => by rw [UsesEntry, hs] at ht; exact ht) hb hn

theorem EntryLaw.congr (h : s.EntryLaw) (hr : t.roster = s.roster) (hm : t.mode = s.mode) (hs : t.rsq = s.rsq)
    (hb : t.rebalActive = s.rebalActive) (hn : t.settings = s.settings) : t.EntryLaw :=
  h.same (samePlaces_of_roster hr) hm hs hb hn

theorem EntryLaw.requestTrip (h : s.EntryLaw) (r : TripRequest) : (s.requestTrip r).EntryLaw := by
  by_cases hm : s.mode = .run
  · refine entryLaw_of_mode ?_
    rw [requestTrip_of_run hm, departRun_mode]
    decide
  · exact (requestTrip_of_not_run hm r).symm ▸ h

/-- A trip leaves RUN, whatever the state in which it is asked for. -/
theorem requestTrip_entryLaw (hm : s.mode = .run) (r : TripRequest) : (s.requestTrip r).EntryLaw := by
  refine entryLaw_of_mode ?_
  rw [requestTrip_of_run hm, departRun_mode]
  decide

theorem push_stage (s : State) (st : Stage) (g : Nat) (q : Option PolicyEntry) : (s.push st g q).rsq.stage = .inhibit := by
  simp [push, enterInhibit]

theorem openEpisode_stage {p : Port} (h : (s.openEpisode p).2 = none) : (s.openEpisode p).1.rsq.stage = .inhibit := by
  simp only [openEpisode] at h ⊢
  split at h
  · cases h
  · rw [if_neg ‹_›]
    split at h
    · cases h
    · rw [if_neg ‹_›]
      exact push_stage _ _ _ _

theorem pushBack_stage {p : Port} {g : Nat} (h : (s.pushBack p g).2 = none) :
    (s.pushBack p g).1.rsq.stage = .inhibit := by
  simp only [pushBack] at h ⊢
  split at h
  · cases h
  · rw [if_neg ‹_›]
    split at h
    · cases h
    · rw [if_neg ‹_›]
      exact push_stage _ _ _ _

/-- A latch for an ACTIVE cell that asks for no trip leads to INHIBIT or ISOLATE, or is deferred. -/
theorem latchActive_cases {p : Port} (h : (s.latchActive p).2 = none) :
    s.latchActive p = (s.deferLatch p, none) ∨
      (s.latchActive p).1.rsq.stage = .inhibit ∨ (s.latchActive p).1.rsq.stage = .isolate := by
  by_cases hn : s.rsq.nest = []
  · rw [latchActive, if_pos hn] at h ⊢
    exact Or.inr (Or.inl (openEpisode_stage h))
  · rw [latchActive, if_neg hn] at h ⊢
    cases hs : s.rsq.stage
    case inhibit => exact Or.inr (Or.inl (by simp [hs]))
    case isolate => exact Or.inr (Or.inr (by simp [hs]))
    case remap => exact Or.inl rfl
    all_goals
      rw [hs] at h
      exact Or.inr (Or.inl (pushBack_stage h))

/-- A latch in RUN that asks for no trip leaves the strings and the sequencer, or a stage that does not use the entry. -/
theorem latchEffect_cases {p : Port} (h : (s.latchEffect p).2 = none) :
    (SamePlaces s (s.latchEffect p).1 ∧ (s.latchEffect p).1.rsq = s.rsq) ∨
      (s.latchEffect p).1.rsq.stage = .inhibit ∨ (s.latchEffect p).1.rsq.stage = .isolate := by
  have hsame : SamePlaces s s := fun _ => SamePlace.refl _
  cases hr : (s.entry p).role <;> simp only [latchEffect, hr] at h ⊢
  case active =>
    split at h
    · rw [if_pos ‹_›]
      exact Or.inl ⟨hsame, rfl⟩
    · rw [if_neg ‹_›]
      rcases latchActive_cases h with he | he
      · rw [he]
        exact Or.inl ⟨s.samePlaces_updEntry p (SamePlace.of_role rfl rfl), rfl⟩
      · exact Or.inr he
  case spare => exact Or.inl ⟨s.retireSpare_samePlaces hr, by simp⟩
  all_goals exact Or.inl ⟨hsame, trivial⟩

theorem EntryLaw.acceptLatch (h : s.EntryLaw) (hm : s.mode = .run) (l : Latch) : (s.acceptLatch l).EntryLaw := by
  have hcount (m st d) := (s.latchEffect l.port).1.countLatch_samePlaces l m st d
  simp only [State.acceptLatch]
  split
  · exact h
  · split
    · exact requestTrip_entryLaw (by simpa using hm) _
    · rename_i hnone
      rcases latchEffect_cases hnone with ⟨he, hr⟩ | hs
      · exact h.same (he.trans (hcount _ _ _)) (by simp) (by simpa using hr) (by simp) (by simp)
      · exact entryLaw_of_stage (by simpa using hs.imp_right Or.inl)

theorem EntryLaw.takeLatch (h : s.EntryLaw) (l : Latch) : (s.takeLatch l).EntryLaw := by
  simp only [State.takeLatch]
  split
  · exact h.acceptLatch ‹_› l
  · exact entryLaw_of_mode (by simpa using ‹¬s.mode = .run›)

theorem EntryLaw.failAlign (h : s.EntryLaw) (p : Port) : (s.failAlign p).EntryLaw := by
  simp only [State.failAlign]
  split
  · exact h.acceptLatch ‹_› _
  · exact h

theorem EntryLaw.windowStep (h : s.EntryLaw) : s.windowStep.EntryLaw := by
  refine foldl_keeps (P := EntryLaw) (f := State.failAlign) (fun _ p h => h.failAlign p) _ ?_
  split
  · exact h
  · exact h.congr rfl rfl rfl rfl rfl

theorem EntryLaw.loseCell (h : s.EntryLaw) (p : Port) : (s.loseCell p).EntryLaw := by
  simp only [State.loseCell, loseIsolating]
  repeat' split
  case h_2 => exact h.takeLatch _
  case h_1.isTrue =>
    exact h.same ((s.deselect_samePlaces p).trans (reselect_samePlaces _)) (by simp) (by simp) (by simp) (by simp)
  case h_3.isTrue => exact h.requestTrip _
  all_goals exact h

theorem EntryLaw.judgePort (h : s.EntryLaw) (p : Port) : (s.judgePort p).EntryLaw := by
  have hcounted : ((s.countPort p).updPs (fun q => { q with judged := p :: q.judged })).EntryLaw :=
    h.congr (by simp) (by simp) (by simp) (by simp) (by simp)
  simp only [State.judgePort]
  split
  · simp only [enterLost]
    refine EntryLaw.loseCell (hcounted.same ?_ (by simp) (by simp) (by simp) (by simp)) p
    have hcut := (s.countPort p).samePlaces_updEntry p (f := fun e => { e with contact := .unknown })
      (SamePlace.of_role rfl rfl)
    exact SamePlaces.roster (SamePlaces.trans (samePlaces_of_roster (by simp)) hcut) (by simp)
  · exact hcounted

theorem EntryLaw.closeFailed (h : s.EntryLaw) (p : Port) : (s.closeFailed p).EntryLaw := by
  have hraised : (s.raise .bypassFail).EntryLaw := h.congr (by simp) (by simp) (by simp) (by simp) (by simp)
  simp only [State.closeFailed]
  split
  · exact hraised.requestTrip _
  · exact hraised

theorem EntryLaw.failStep (h : s.EntryLaw) : s.failStep.EntryLaw := by
  have hretry (p : Port) : (s.setRetry p true).EntryLaw := h.congr (by simp) (by simp) (by simp) (by simp) (by simp)
  have hdropped (p : Port) : (s.setRetry p true).dropHead.EntryLaw :=
    h.congr (by simp) (by simp) (by simp) (by simp) (by simp)
  simp only [State.failStep]
  repeat' split
  · rename_i a _ _ _ _
    exact ((hretry a.port).closeFailed a.port).congr (by simp) (by simp) (by simp) (by simp) (by simp)
  · rename_i a _ _ _ _
    exact (hdropped a.port).same (openFailed_samePlaces _ a.port) (by simp) (by simp) (by simp) (by simp)
  all_goals exact h

theorem EntryLaw.holdStep (h : s.EntryLaw) : s.holdStep.EntryLaw := by
  have hcounted : (s.updCli (fun c => { c with holdCount := s.holdAfter })).EntryLaw := h.congr rfl rfl rfl rfl rfl
  simp only [State.holdStep]
  split
  · exact hcounted.requestTrip _
  · exact hcounted

theorem remapCompletion_entryLaw (hm : s.mode = .run) : s.remapCompletion.EntryLaw := by
  have hrun : s.rebuild.applyRecovery.mode = .run := by simpa using hm
  simp only [remapCompletion]
  repeat' split
  · exact requestTrip_entryLaw hrun _
  · rename_i i hi _
    have husable : s.rebuild.applyRecovery.Usable := by
      refine usable_of_lookup ?_
      rw [activeLookup] at hi
      rw [hi]
      rfl
    refine entryLaw_of_usable (fun _ _ => husable.places ?_ (by simp [enterAlign]) (by simp [enterAlign]))
    exact samePlaces_of_roster (by simp [enterAlign])
  · simp only [acceptDeferred]
    repeat' split
    · exact requestTrip_entryLaw (by simpa using hrun) _
    · exact requestTrip_entryLaw (by simpa using hrun) _
    · exact entryLaw_of_stage (Or.inl (push_stage _ _ _ _))

theorem inhibitProgress_stage (hs : s.rsq.stage = .inhibit) :
    s.inhibitProgress.rsq.stage = .inhibit ∨ s.inhibitProgress.rsq.stage = .isolate := by
  simp only [inhibitProgress, enterIsolate]
  repeat' split
  all_goals simp [hs]

theorem EntryLaw.stageProgress (h : s.EntryLaw) (hm : s.mode = .run) : s.stageProgress.EntryLaw := by
  cases hs : s.rsq.stage <;> simp only [State.stageProgress, hs]
  case normal => exact h
  case inhibit => exact entryLaw_of_stage ((inhibitProgress_stage hs).imp_right Or.inl)
  case isolate =>
    split
    · exact entryLaw_of_stage (by simp [enterRemap])
    · exact h
  case remap => exact remapCompletion_entryLaw hm
  case align =>
    split
    · exact h.places (samePlaces_of_roster rfl) (fun _ => hm) (fun _ _ => Or.inl hs) rfl rfl
    · exact h
  case awaitGrant =>
    split
    · exact h.places (samePlaces_of_roster rfl) (fun _ => hm) (fun _ _ => Or.inr (Or.inl hs)) rfl rfl
    · exact h
  case resume =>
    refine h.places (samePlaces_of_roster s.resumeProgress_roster) (fun _ => hm)
      (fun _ _ => Or.inr (Or.inr (Or.inl hs))) ?_ ?_ <;>
    · simp only [resumeProgress, endResume]
      repeat' split
      all_goals simp

theorem EntryLaw.sequencerStep (h : s.EntryLaw) : s.sequencerStep.EntryLaw := by
  have hgap : s.gapStep.EntryLaw := by
    refine h.places (samePlaces_of_roster (by simp)) (fun ht => by simpa using ht) (fun _ hs => ?_) (by simp) (by simp)
    simp only [gapStep] at hs
    split at hs <;> exact hs
  simp only [State.sequencerStep]
  repeat' split
  · exact hgap.requestTrip _
  · exact hgap.stageProgress (by simpa using ‹s.mode = .run›)
  · exact h

theorem copyBanks_rebalActive (s : State) (gs : List Group) :
    (s.copyBanks gs).rebalActive = if .rebalance ∈ gs then s.rebalStaged else s.rebalActive := by
  have hfold (t : State) (gs : List Group) :
      (gs.foldl copyBank t).rebalActive = if .rebalance ∈ gs then t.rebalStaged else t.rebalActive := by
    induction gs generalizing t with
    | nil => rfl
    | cons g gs ih =>
      rw [List.foldl_cons, ih]
      cases g <;> simp [copyBank]
  simp only [copyBanks, raiseIf]
  split <;> simp [hfold]

/-- R156: in RUN a REBALANCE bank is copied only where the present tuple has a valid entry in it. -/
theorem EntryLaw.commitStep (h : s.EntryLaw) : s.commitStep.EntryLaw := by
  simp only [State.commitStep]
  split
  · refine entryLaw_of_usable (fun hrun hstage => ?_)
    have hm : s.mode = .run := by simpa using hrun
    have hs : s.UsesEntry := by simpa [UsesEntry] using hstage
    by_cases hcopied : .rebalance ∈ s.periodDue.filter (fun g => !s.commitDrops g)
    · have hlookup : s.stagedLookup.isSome = true := by
        have := (List.mem_filter.mp hcopied).2
        simpa [commitDrops, hm, Option.isSome_iff_ne_none] using this
      have hbank : Usable { s with rebalActive := s.rebalStaged } := usable_of_lookup hlookup
      exact hbank.places (samePlaces_of_roster (by simp)) (by simp [copyBanks_rebalActive, hcopied]) (by simp)
    · exact Usable.places (s := s) (h.usable hm hs) (samePlaces_of_roster (by simp))
        (by simp [copyBanks_rebalActive, hcopied]) (by simp)
  · exact h

theorem EntryLaw.runStep (h : s.EntryLaw) (y : PsStep) : (s.runStep y).EntryLaw := by
  cases y
  case hold => exact h.holdStep
  case fail => exact h.failStep
  case sequencer => exact h.sequencerStep
  case links => exact foldl_keeps (P := EntryLaw) (f := State.judgePort) (fun _ p h => h.judgePort p) _ h
  case window => exact h.windowStep
  case commit => exact h.commitStep
  case select =>
    exact h.same s.selectStep_samePlaces (by simp [State.runStep]) (by simp [State.runStep]) (by simp [State.runStep])
      (by simp [State.runStep])
  case deem =>
    exact h.same (samePlaces_foldl deemClosed_samePlaces _ _) (by simp [State.runStep]) (by simp [State.runStep])
      (by simp [State.runStep]) (by simp [State.runStep])
  case leak =>
    exact h.same s.leakStep_samePlaces (by simp [State.runStep]) (by simp [State.runStep]) (by simp [State.runStep])
      (by simp [State.runStep])
  case issue =>
    exact h.same s.issueStep_samePlaces (by simp [State.runStep]) (by simp [State.runStep]) (by simp [State.runStep])
      (by simp [State.runStep])
  all_goals
    exact h.congr (by simp [State.runStep]) (by simp [State.runStep]) (by simp [State.runStep]) (by simp [State.runStep])
      (by simp [State.runStep])

theorem warmReset_entryLaw (s : State) : s.warmReset.EntryLaw :=
  entryLaw_of_mode (by simpa using s.modeByLine_ne_run)

theorem entryLaw_periodKept : PeriodKept EntryLaw where
  record _ _ h := h.congr rfl rfl rfl rfl rfl
  run _ y h := h.runStep y
  opening _ h := h.congr (by simp) (by simp) (by simp) (by simp) (by simp)
  replies s h := replyEnds_keeps h (fun _ => s.warmReset_entryLaw)
    (fun _ => h.congr (by simp) (by simp) (by simp) (by simp) (by simp))
  supply _ _ h := h.congr rfl rfl rfl rfl rfl
  judge _ p h := h.judgePort p
  latch _ l h := h.takeLatch l
  handed _ _ h := h.congr rfl rfl rfl rfl rfl

theorem EntryLaw.handLatch (h : s.EntryLaw) (l : Latch) (late : Bool) : (s.handLatch l late).EntryLaw := by
  simp only [State.handLatch]
  split
  · exact h.congr rfl rfl rfl rfl rfl
  · exact h.takeLatch l

theorem EntryLaw.clipWord (h : s.EntryLaw) (p : Port) (w : Half) (i : Fin 16) (late : Bool) :
    (s.clipWord p w i late).EntryLaw := by
  have hfilled (n : Nat) : ((s.raise .clip).updEntry p (fun e => { e with clipBucket := n })).EntryLaw :=
    h.same ((s.raise .clip).samePlaces_updEntry p (SamePlace.of_role rfl rfl)) (by simp) (by simp) (by simp) (by simp)
  simp only [State.clipWord]
  repeat' split
  · exact (hfilled 0).handLatch _ _
  · exact (hfilled ((s.entry p).clipBucket + 1)).congr (by simp) (by simp) (by simp) (by simp) (by simp)
  · exact hfilled ((s.entry p).clipBucket + 1)

theorem EntryLaw.tripWord (h : s.EntryLaw) (p : Port) (w : Half) (i : Fin 16) : (s.tripWord p w i).EntryLaw := by
  have hraised : (s.raise .tripCause).EntryLaw := h.congr rfl rfl rfl rfl rfl
  simp only [State.tripWord]
  split
  · exact hraised.requestTrip _
  · exact hraised.congr (by simp) (by simp) (by simp) (by simp) (by simp)

theorem EntryLaw.screenWord (h : s.EntryLaw) (p : Port) (w : Half) (late : Bool) : (s.screenWord p w late).EntryLaw := by
  simp only [State.screenWord]
  repeat' split
  · rename_i i _
    have hhit : (s.countHit i).EntryLaw := h.congr (by simp) (by simp) (by simp) (by simp) (by simp)
    cases (s.screenActive[i.val]).action <;> simp only [applyAction]
    case pass => exact hhit
    case note =>
      exact hhit.same (t := (s.countHit i).noteWord p) (noteWord_samePlaces _ p) (by simp) (by simp) (by simp) (by simp)
    case clip => exact hhit.clipWord p w i late
    case latch => exact hhit.handLatch _ late
    case trip => exact hhit.tripWord p w i
  all_goals exact h

theorem EntryLaw.receiveSts (h : s.EntryLaw) (p : Port) (bytes : List Byte) (late : Bool) :
    (s.receiveSts p bytes late).EntryLaw := by
  simp only [State.receiveSts]
  split
  case h_5 f _ =>
    have hrecorded : ((s.updLink p Link.accept).recordStatus p f).EntryLaw :=
      h.same (recordStatus_samePlaces _ p f) (by simp) (by simp) (by simp) (by simp)
    have hconfirmed := hrecorded.same (confirmContact_samePlaces _ p (contactOf f.contactCode)) (by simp) (by simp)
      (by simp) (by simp)
    exact EntryLaw.screenWord (hconfirmed.congr (by simp) (by simp) (by simp) (by simp) (by simp)) p f.word late
  all_goals exact h.congr (by simp) (by simp) (by simp) (by simp) (by simp)

theorem lookup_of_checkStart {f : MgtFrame} (hc : s.checkStart f = none) : s.activeLookup.isSome = true := by
  simp only [checkStart, firstReject_eq_none, List.mem_cons, List.not_mem_nil, or_false, forall_eq_or_imp, forall_eq,
    Option.map_eq_none_iff, firstFailure_eq_none, startChecks] at hc
  obtain ⟨-, -, -, -, -, -, -, -, -, hlookup⟩ := hc
  exact hlookup

/-- R18: renumbering moves no cell into or out of ACTIVE. -/
theorem renumber_activeCount (s : State) (x : Phase) : s.renumber.activeCount x = s.activeCount x := by
  have hrole (p : Port) : (s.renumber.entry p).role = (s.entry p).role := by
    rw [renumber_entry, renumbered_eq]
  simp only [activeCount, hrole]

theorem startRun_entryLaw {f : MgtFrame} (hc : s.checkStart f = none) : s.startRun.EntryLaw := by
  have h : s.Usable := usable_of_lookup (lookup_of_checkStart hc)
  have hdeficit (x : Phase) : s.startRun.deficit x = s.deficit x := by
    have hroster : SamePlaces s.renumber s.startRun := samePlaces_of_roster (by simp [startRun])
    rw [deficit, deficit, hroster.activeCount, renumber_activeCount]
    simp
  refine entryLaw_of_usable (fun _ _ => ?_)
  have hb : s.startRun.rebalActive = s.rebalActive := by simp
  have hn : s.startRun.settings = s.settings := by simp
  simp only [Usable, hdeficit, hb, hn]
  exact h

theorem EntryLaw.writeStore (h : s.EntryLaw) {f : MgtFrame} (hc : s.checkWriteTable f = none) :
    (s.writeStore f).EntryLaw := by
  simp only [State.writeStore]
  split
  case h_1 ht =>
    have hm := (rosterEntryOk_of_checkWriteTable hc ht).1
    exact entryLaw_of_mode (by simp [hm])
  all_goals exact h.congr rfl rfl rfl rfl rfl

theorem EntryLaw.commitStore (h : s.EntryLaw) (f : MgtFrame) : (s.commitStore f).EntryLaw := by
  simp only [State.commitStore]
  repeat' split
  · exact entryLaw_of_mode (by simp [‹s.mode = .standby›])
  all_goals exact h.congr rfl rfl rfl rfl rfl

theorem EntryLaw.receiveRef (h : s.EntryLaw) (f : RefFrame) : (s.receiveRef f).EntryLaw := by
  refine h.places (samePlaces_of_roster (by simp)) (fun ht => by simpa using ht) (fun _ hs => ?_) (by simp) (by simp)
  rcases s.receiveRef_rsq f with hr | ⟨-, hr⟩ <;> rw [UsesEntry, hr] at hs <;> exact hs

theorem mode_of_checkSetConfig {f : MgtFrame} (hc : s.checkSetConfig f = none) : s.mode = .standby := by
  simp only [checkSetConfig, firstReject_eq_none, List.mem_cons, List.not_mem_nil, or_false, forall_eq_or_imp, forall_eq,
    require_eq_none, beq_iff_eq] at hc
  exact hc.1

theorem entryLaw_commandKept : CommandKept EntryLaw := by
  constructor
  case period => exact entryLaw_periodKept
  case pinReset => exact fun s _ => entryLaw_of_mode (fun h => by cases h)
  case riseReset => exact fun s _ => entryLaw_of_mode s.modeByLine_ne_run
  case fall => exact fun s _ => entryLaw_of_mode (by rw [fallSafety_mode]; decide)
  case ref => exact fun _ f h => h.receiveRef f
  case sts => exact fun _ p bytes late h => h.receiveSts p bytes late
  case warm => exact fun s _ _ => s.warmReset_entryLaw
  case write => exact fun _ _ h hc => h.writeStore hc
  case commit => exact fun _ f h => h.commitStore f
  case config => exact fun s f _ hc => entryLaw_of_mode (by simp [mode_of_checkSetConfig hc])
  case start => exact fun s f _ _ hc => startRun_entryLaw hc
  case stop => exact fun s _ => entryLaw_of_mode (fun h => by cases h)
  case clear => exact fun s f _ _ => entryLaw_of_mode (fun h => by cases h)
  all_goals
    intros
    exact EntryLaw.congr ‹_› (by simp [setSafety, badFrame]) (by simp [setSafety, badFrame])
      (by simp [setSafety, badFrame]) (by simp [setSafety, badFrame]) (by simp [setSafety, badFrame])

end State

/-- Settles O5: a cell keeps its place in its string through every operation but a renumbering, which numbers the
string again; a rebuilt string is no longer than the one before it, since each spare takes another cell's place; and the
entry in use changes only in a stage that does not use it, or under the lookup. -/
theorem rosterLawKept : Obligations.RosterLawKept := by
  refine ⟨fun s t hr hq hstep => ?_, fun s t hr hq hs hstep => ?_, fun s t h hstep => ?_⟩
  · exact State.cellLaw_commandKept.step (fun _ _ h => h.congr rfl rfl rfl) ⟨hr, hq⟩ hstep
  · exact (State.placeLaw_commandKept.step (fun _ _ h => h.congr rfl rfl rfl rfl) ⟨⟨hr, hq⟩, hs⟩ hstep).2
  · exact State.entryLaw_commandKept.step (fun _ _ h => h.congr rfl rfl rfl rfl rfl) h hstep

end Sys2Proof.Machine

/-! ### Bytes, words and the CRC (R174 to R176) -/

namespace Sys2Proof

theorem half_eq (h : Half) : half h = [h.extractLsb' 8 8, h.extractLsb' 0 8] := by
  simp only [half, u16, List.cons.injEq, and_true]
  constructor <;> (apply BitVec.eq_of_toNat_eq; simp [BitVec.extractLsb'_toNat, Nat.shiftRight_eq_div_pow])

@[simp] theorem half_length (h : Half) : (half h).length = 2 := rfl

@[simp] theorem joinHalf_extract (h : Half) : joinHalf (h.extractLsb' 8 8) (h.extractLsb' 0 8) = h := by
  have happend := BitVec.extractLsb'_append_extractLsb'_eq_extractLsb' (x := h) (len₂ := 8) (show 8 = 0 + 8 from rfl)
  exact happend.trans (BitVec.extractLsb'_eq_self ..)

theorem extract_joinHalf (hi lo : Byte) :
    (joinHalf hi lo).extractLsb' 8 8 = hi ∧ (joinHalf hi lo).extractLsb' 0 8 = lo := by
  simp only [joinHalf]
  constructor
  · exact BitVec.extractLsb'_append_eq_left
  · exact BitVec.extractLsb'_append_eq_right

theorem half_joinHalf (hi lo : Byte) : half (joinHalf hi lo) = [hi, lo] := by
  rw [half_eq, (extract_joinHalf hi lo).1, (extract_joinHalf hi lo).2]

/-- R175: the CRC check passes exactly the bodies that carry their CRC. -/
theorem stripCrc_eq_some_iff {bytes body : List Byte} : stripCrc bytes = some body ↔ bytes = withCrc body := by
  simp only [stripCrc, withCrc]
  constructor
  · split
    · rename_i h
      intro he
      obtain rfl := Option.some.inj he
      rw [← h.2, List.take_append_drop]
    · simp
  · rintro rfl
    simp

@[simp] theorem stripCrc_withCrc (body : List Byte) : stripCrc (withCrc body) = some body :=
  stripCrc_eq_some_iff.mpr rfl

theorem stripCrc_of_wrong {body : List Byte} {hi lo : Byte} (h : hi ++ lo ≠ crc16 body) :
    stripCrc (body ++ [hi, lo]) = none := by
  by_contra hne
  obtain ⟨b, hb⟩ := Option.ne_none_iff_exists'.mp hne
  rw [stripCrc_eq_some_iff, withCrc, half_eq] at hb
  obtain ⟨rfl, hcrc⟩ := List.append_inj' hb (by simp)
  simp only [List.cons.injEq, and_true] at hcrc
  refine h ?_
  rw [hcrc.1, hcrc.2]
  exact joinHalf_extract _

/-! ### REF and MGT frames -/

/-- The control byte of a REF frame holds the motion code and the grant flag in their places. -/
theorem refControl_fields (f : RefFrame) :
    (refControl f).extractLsb' 0 3 = f.motionCode ∧ (refControl f).getLsbD 7 = f.grant := by
  simp only [refControl]
  generalize f.motionCode = m
  cases f.grant <;> revert m <;> decide

theorem parseRefBody_eq_ref_iff {body : List Byte} {f : RefFrame} :
    parseRefBody body = .ref f ↔ ∃ t control : Byte, control.extractLsb' 0 3 = f.motionCode ∧
      control.getLsbD 7 = f.grant ∧
      body = [t, f.seq, control, f.token] ++ half f.vA ++ half f.vB ++ half f.vC := by
  constructor
  · intro h
    simp only [parseRefBody] at h
    split at h
    · cases h
      rename_i t _ control _ _ _ _ _ _ _
      exact ⟨t, control, (BitVec.setWidth_eq_extractLsb' (by decide)).symm, rfl, by simp [half_joinHalf]⟩
    · cases h
  · rintro ⟨t, control, hcode, hgrant, rfl⟩
    cases f
    simp only [half_eq, parseRefBody]
    simp_all [BitVec.setWidth_eq_extractLsb']

theorem parseDownstream_withCrc (t : Byte) (rest : List Byte) :
    parseDownstream (withCrc (t :: rest)) =
      if t = typeRef then parseRefBody (t :: rest) else if t = typeMgt then parseMgtBody (t :: rest) else .bad := by
  simp [parseDownstream]

/-- A frame that passes the form check carries its CRC and one of the two type codes. -/
theorem parseDownstream_ne_bad {bytes : List Byte} (h : parseDownstream bytes ≠ .bad) :
    ∃ (t : Byte) (rest : List Byte), bytes = withCrc (t :: rest) := by
  simp only [parseDownstream] at h
  split at h
  · exact absurd rfl h
  · rename_i body hbody
    cases body with
    | nil => exact absurd rfl h
    | cons t rest => exact ⟨t, rest, stripCrc_eq_some_iff.mp hbody⟩

theorem parseMgtBody_ne_ref (body : List Byte) (f : RefFrame) : parseMgtBody body ≠ .ref f := by
  simp only [parseMgtBody]
  repeat' split
  all_goals simp

theorem parseRefBody_ne_mgt (body : List Byte) (f : MgtFrame) : parseRefBody body ≠ .mgt f := by
  simp only [parseRefBody]
  split <;> simp

theorem parseDownstream_eq_ref_iff {bytes : List Byte} {f : RefFrame} :
    parseDownstream bytes = .ref f ↔ ∃ control : Byte, control.extractLsb' 0 3 = f.motionCode ∧
      control.getLsbD 7 = f.grant ∧
      bytes = withCrc ([typeRef, f.seq, control, f.token] ++ half f.vA ++ half f.vB ++ half f.vC) := by
  constructor
  · intro h
    obtain ⟨t, rest, rfl⟩ := parseDownstream_ne_bad (bytes := bytes) (by simp [h])
    rw [parseDownstream_withCrc] at h
    split at h
    · subst t
      obtain ⟨t, control, hcode, hgrant, hbody⟩ := parseRefBody_eq_ref_iff.mp h
      have ht : typeRef = t := (List.cons.inj hbody).1
      exact ⟨control, hcode, hgrant, by rw [hbody, ht]⟩
    · split at h
      · exact absurd h (parseMgtBody_ne_ref _ f)
      · cases h
  · rintro ⟨control, hcode, hgrant, rfl⟩
    have hbody := (parseRefBody_eq_ref_iff (f := f)).mpr ⟨typeRef, control, hcode, hgrant, rfl⟩
    simpa only [List.cons_append, parseDownstream_withCrc, if_pos] using hbody

/-- Settles O11: the CRC check leaves the body, and the body is read field by field. -/
theorem refFrameRoundTrip : Obligations.RefFrameRoundTrip := by
  unfold Obligations.RefFrameRoundTrip
  refine ⟨fun f => ?_, fun bytes f => ?_⟩
  · exact parseDownstream_eq_ref_iff.mpr ⟨refControl f, (refControl_fields f).1, (refControl_fields f).2, rfl⟩
  · simp only [parseDownstream_eq_ref_iff, withCrc, half_eq, typeRef]
    refine exists_congr fun control => and_congr_right fun _ => and_congr_right fun _ => ?_
    exact ⟨fun h => ⟨h, by simp [h]⟩, fun h => h.1⟩

theorem parseMgtBody_eq_mgt_iff {body : List Byte} {f : MgtFrame} :
    parseMgtBody body = .mgt f ↔
      f.payload.length ≤ 120 ∧ ∃ t : Byte, body = [t, f.tag, f.code] ++ u8 f.payload.length ++ f.payload := by
  constructor
  · intro h
    simp only [parseMgtBody] at h
    split at h
    · split at h
      · rename_i t _ _ len payload hlen
        cases h
        refine ⟨by simp [hlen], t, ?_⟩
        simp [u8, hlen]
      · cases h
    · cases h
  · rintro ⟨hlen, t, rfl⟩
    have hbyte : (BitVec.ofNat 8 f.payload.length).toNat = f.payload.length := by
      rw [BitVec.toNat_ofNat]
      omega
    simp [parseMgtBody, u8, hbyte, hlen]

/-- Settles O12: as for a REF frame, with the payload's length in its byte. -/
theorem mgtFrameRoundTrip : Obligations.MgtFrameRoundTrip := by
  unfold Obligations.MgtFrameRoundTrip
  intro bytes f
  constructor
  · intro h
    obtain ⟨t, rest, rfl⟩ := parseDownstream_ne_bad (bytes := bytes) (by simp [h])
    rw [parseDownstream_withCrc] at h
    split at h
    · exact absurd h (parseRefBody_ne_mgt _ f)
    · split at h
      · subst t
        obtain ⟨hlen, t, hbody⟩ := parseMgtBody_eq_mgt_iff.mp h
        have ht : typeMgt = t := (List.cons.inj hbody).1
        exact ⟨by rw [hbody, encodeMgt, ht], hlen⟩
      · cases h
  · rintro ⟨rfl, hlen⟩
    have hbody := (parseMgtBody_eq_mgt_iff (f := f)).mpr ⟨hlen, typeMgt, rfl⟩
    simpa only [encodeMgt, List.cons_append, parseDownstream_withCrc, if_pos, if_neg (show typeMgt ≠ typeRef by decide)]
      using hbody

/-! ### Status frames -/

theorem append_extract_vdc (c : BitVec 3) (v : BitVec 13) :
    (c ++ v).extractLsb' 13 3 = c ∧ (c ++ v).setWidth 13 = v :=
  ⟨BitVec.extractLsb'_append_eq_left, by
    rw [BitVec.setWidth_eq_extractLsb' (by decide)]
    exact BitVec.extractLsb'_append_eq_right⟩

theorem extract_append_vdc (w : Half) : w.extractLsb' 13 3 ++ w.setWidth 13 = w := by
  rw [BitVec.setWidth_eq_extractLsb' (by decide)]
  have happend := BitVec.extractLsb'_append_extractLsb'_eq_extractLsb' (x := w) (start₁ := 0) (start₂ := 13) (len₁ := 13)
    (len₂ := 3) rfl
  exact happend.trans (BitVec.extractLsb'_eq_self ..)

theorem parseStsBody_eq_some_iff {body : List Byte} {f : StsFrame} :
    parseStsBody body = some f ↔
      body = [typeSts, f.port, f.tag] ++ half f.word ++ half (f.contactCode ++ f.vdc) ++ half f.capture := by
  constructor
  · intro h
    simp only [parseStsBody] at h
    split at h
    · split at h
      · cases h
        simp_all [half_joinHalf, extract_append_vdc]
      · cases h
    · cases h
  · rintro rfl
    simp only [half_eq, parseStsBody, List.cons_append, List.nil_append, if_pos, joinHalf_extract,
      (append_extract_vdc f.contactCode f.vdc).1, (append_extract_vdc f.contactCode f.vdc).2]

theorem parseSts_eq_some_iff {bytes : List Byte} {f : StsFrame} : parseSts bytes = some f ↔ bytes = encodeSts f := by
  simp only [parseSts, Option.bind_eq_some_iff, stripCrc_eq_some_iff, parseStsBody_eq_some_iff, encodeSts]
  exact ⟨fun ⟨_, hbytes, hbody⟩ => by rw [hbytes, hbody], fun h => ⟨_, h, rfl⟩⟩

/-- Settles O13: check 1 is the form check with the three ranges. -/
theorem statusFormCheck : Obligations.StatusFormCheck := by
  unfold Obligations.StatusFormCheck
  intro s bytes f
  simp only [Machine.State.checkSts, Option.filter_eq_some_iff, parseSts_eq_some_iff, decide_eq_true_eq]

/-! ### The frames the part sends -/

theorem extract_byte {w : Nat} (v : BitVec w) (k : Nat) : v.extractLsb' k 8 = BitVec.ofNat 8 (v.toNat / 2 ^ k) := by
  apply BitVec.eq_of_toNat_eq
  simp [BitVec.extractLsb'_toNat, Nat.shiftRight_eq_div_pow]

theorem u32_toNat (v : BitVec 32) :
    u32 v.toNat = [v.extractLsb' 24 8, v.extractLsb' 16 8, v.extractLsb' 8 8, v.extractLsb' 0 8] := by
  simp only [u32, u16, extract_byte, Nat.div_div_eq_div_mul, List.cons_append, List.nil_append]
  norm_num

theorem u24_toNat (v : BitVec 24) : u24 v.toNat = [v.extractLsb' 16 8, v.extractLsb' 8 8, v.extractLsb' 0 8] := by
  simp only [u24, u16, extract_byte]
  norm_num

theorem withCrc_of_eq {body bytes : List Byte} (h : body = bytes) :
    withCrc body = bytes ++ [(crc16 bytes).extractLsb' 8 8, (crc16 bytes).extractLsb' 0 8] := by
  rw [h, withCrc, half_eq]

namespace Machine

theorem Mode.code_eq_idxOf (m : Mode) : m.code = [Mode.standby, .run, .tripped, .safeStop].idxOf m := by cases m <;> rfl

theorem Stage.code_eq_idxOf (x : Stage) :
    x.code = [Stage.normal, .inhibit, .isolate, .remap, .align, .awaitGrant, .resume].idxOf x := by cases x <;> rfl

theorem Result.code_eq_idxOf (r : Result) :
    r.code = [Result.done, .refusedMode, .refusedState, .badTable, .badIndex, .badLength, .badValue].idxOf r := by
  cases r <;> rfl

theorem Command.code_eq_idxOf (c : Command) : c.code = [Command.switch, .zero, .block].idxOf c := by cases c <;> rfl

end Machine

/-- Settles O14: each frame's body is written out byte by byte under the same seal. -/
theorem crcGuardsFrames : Obligations.CrcGuardsFrames := by
  unfold Obligations.CrcGuardsFrames
  refine ⟨Tests.test_crc, fun body hi lo h => ⟨?_, ?_⟩, fun d => withCrc_of_eq ?_, fun b r => withCrc_of_eq ?_,
    fun f => withCrc_of_eq ?_⟩
  · simp [parseDownstream, stripCrc_of_wrong h]
  · simp [parseSts, stripCrc_of_wrong h]
  · have hempty : 128 * bit d.newestLog.isNone = if d.newestLog = none then 128 else 0 := by
      cases d.newestLog <;> simp [bit]
    simp only [Machine.Mode.code_eq_idxOf, Machine.Stage.code_eq_idxOf, u32_toNat, u24_toNat, half_eq, u16, u8, hempty,
      List.cons_append, List.nil_append]
    rfl
  · simp [u8, Machine.Result.code_eq_idxOf]
  · have hload : 128 * bit f.load.isSome = if f.load = none then 0 else 128 := by
      cases f.load <;> simp [bit]
    have horder : 16 * f.order.code = if f.order = .closed then 16 else 0 := by
      cases f.order <;> rfl
    have htype : BitVec.ofNat 8 (if f.urgent then 0xC2 else 0xC1) = if f.urgent then 0xC2#8 else 0xC1#8 := by
      split <;> rfl
    have hsteps : (f.load.map (fun l => l.1)).getD 0 = (f.load.getD (0, false)).1 := by
      cases f.load <;> rfl
    have hdown : BitVec.ofNat 8 (bit ((f.load.map (fun l => l.2)).getD false)) =
        if (f.load.getD (0, false)).2 then 1 else 0 := by
      rcases f.load with - | ⟨_, - | -⟩ <;> rfl
    simp only [u16, u8, hload, horder, htype, hsteps, hdown, Machine.Command.code_eq_idxOf, List.cons_append,
      List.nil_append]
    rfl

end Sys2Proof

/-! ### The step, the queue and the part right after reset -/

namespace Sys2Proof.Machine

theorem exec_next (c : Instr) (s : State) : ∃ t : State, exec c s = .next t := by
  cases c <;> exact ⟨_, rfl⟩

/-- Settles O1: the step is defined so, and every arm of `exec` answers a next state. -/
theorem stepTakesFrontCommand : Obligations.StepTakesFrontCommand := by
  unfold Obligations.StepTakesFrontCommand
  exact fun c s => ⟨rfl, exec_next c s⟩

namespace State

variable {s : State}

theorem unlessHeld_of_running (h : s.lines.resetN = true) (f : State → State) : s.unlessHeld f = f s := if_pos h

theorem unlessHeld_of_held (h : s.lines.resetN = false) (f : State → State) : s.unlessHeld f = s := by
  simp [unlessHeld, h]

theorem Settled.unfinished_eq (h : s.Settled) : s.unfinished = false := by simp [unfinished, h.between, h.taken]

end State

theorem step_of_empty {s : State} (h : s.pending = []) : step s = .next s.idleTick := by simp [step, h]

/-- Settles O2: on a settled part `idleTick` is the tick or the period start, by the carrier's position. -/
theorem emptyQueueTicksCarrier : Obligations.EmptyQueueTicksCarrier := by
  unfold Obligations.EmptyQueueTicksCarrier
  refine ⟨fun s hs hp => ?_, fun s hr hp => ?_⟩
  · rw [step_of_empty hp, State.idleTick, State.unlessHeld_of_running hs.running, if_neg (by simp [hs.unfinished_eq])]
    refine ⟨fun h => ?_, fun h => ?_⟩
    · rw [if_pos h]
      rfl
    · rw [if_neg (by omega), exec, execPeriodStart, State.unlessHeld_of_running hs.running]
  · rw [step_of_empty hp, State.idleTick, State.unlessHeld_of_held hr]

namespace State

@[simp] theorem reset_entry (p : Port) : reset.entry p = RosterEntry.afterPin := by simp [entry, reset, atPinReset]

theorem reset_carrierLaw : reset.CarrierLaw where
  record := by decide
  inForce := by decide
  position := by decide

theorem afterPin_policyLaw : PolicyEntry.afterPin.Law where
  gap := by decide
  ramp := by decide
  nest := by decide

theorem reset_policyLaw : reset.PolicyLaw where
  staged i := by simpa [reset, atPinReset] using afterPin_policyLaw
  active i := by simpa [reset, atPinReset] using afterPin_policyLaw
  episode := by simp [reset, atPinReset, Sequencer.afterPin]
  depth := by decide

theorem reset_stageLaw : reset.StageLaw where
  stage _ := rfl
  nest _ := rfl
  grant h := by cases h
  gain := rfl

theorem reset_logLaw : reset.LogLaw where
  size := by decide
  numbers := rfl

theorem reset_queueLaw : reset.QueueLaw where
  ports := List.nodup_nil
  waiting := by simp [reset, atPinReset, Bypass.afterPin]

end State

/-- Settles O10. -/
theorem resetObeysLaws : Obligations.ResetObeysLaws := by
  unfold Obligations.ResetObeysLaws
  obtain ⟨⟨hroster, hquiet⟩, hstring⟩ := State.placeLaw_of_absent State.reset_entry rfl
  exact ⟨State.reset_stageLaw, hroster, hquiet, State.reset_queueLaw, State.reset_policyLaw, State.reset_carrierLaw,
    State.reset_logLaw, State.gapLaw_of_nil (by decide) rfl, hstring, State.entryLaw_of_mode (by decide)⟩

/-! ### PIN_RESET and the rise of RESET_N (R170) -/

namespace State

@[simp] theorem keepMoments_link (s t : State) (p : Port) :
    (s.keepMoments t).link p = { t.link p with moments := (s.link p).moments } := by
  simp [keepMoments]

@[simp] theorem atPinReset_link (l : Lines) (q : List Instr) (p : Port) : (atPinReset l q).link p = Link.afterPin := by
  simp [link, atPinReset]

@[simp] theorem atPinReset_cport (l : Lines) (q : List Instr) (p : Port) :
    (atPinReset l q).cport p = CarrierPort.afterPin := by
  simp [cport, atPinReset, Carrier.afterPin]

theorem pinReset_link (s : State) (p : Port) :
    s.pinReset.link p = { Link.afterPin with moments := (s.link p).moments } := by
  simp [pinReset]

theorem pinReset_cport (s : State) (p : Port) : s.pinReset.cport p = CarrierPort.afterPin :=
  by
    rw [pinReset, keepMoments, mapLinks_cport, atPinReset_cport]

end State

/-- Settles O15: every field is the constant of its block. -/
theorem pinResetValues : Obligations.PinResetValues := by
  unfold Obligations.PinResetValues
  intro s
  refine ⟨s.pinReset, rfl, rfl, rfl, s.pinReset_entry, ?_, rfl, rfl, rfl, rfl, ?_, ?_, rfl, rfl, rfl, rfl, rfl, rfl,
    s.pinReset_cport, ?_, rfl, rfl, s.pinReset_link, rfl, rfl, rfl, rfl, rfl, rfl, rfl, rfl, rfl, rfl, rfl⟩
  · exact fun i => ⟨Vector.getElem_replicate _, Vector.getElem_replicate _⟩
  · exact fun p => ⟨Vector.getElem_replicate _, Vector.getElem_replicate _⟩
  · exact fun i => ⟨Vector.getElem_replicate _, Vector.getElem_replicate _⟩
  · exact fun i => ⟨Vector.getElem_replicate _, Vector.getElem_replicate _, Vector.getElem_replicate _⟩

/-- Settles O16: the rise is PIN_RESET with the level and the mode set. -/
theorem resetRise : Obligations.ResetRise := by
  unfold Obligations.ResetRise
  refine fun s => ⟨fun hr => ⟨s.riseReset, by simp [exec, execResetNRise, hr], rfl, rfl, rfl, rfl, rfl, rfl, rfl, rfl,
    fun p => ⟨by rw [State.riseReset_entry]; rfl, ?_⟩, ?_, ?_, ?_, s.pinReset, rfl, rfl⟩, fun hr => ?_⟩
  · rw [State.riseReset, State.keepMoments_link, State.setMode_link, State.atPinReset_link]
    rfl
  · exact (State.brakeDemand_iff _).mpr (Or.inl s.modeByLine_ne_run)
  · exact Bool.eq_false_iff.mpr fun h => s.modeByLine_ne_tripped ((State.tripLine_iff _).mp h).1
  · exact Bool.eq_false_iff.mpr fun h => s.modeByLine_ne_run ((State.torqueGap_iff _).mp h).1
  · simp [exec, execResetNRise, hr]

/-! ### Targets, phase loads, phase errors and trims (R96, R97, R98, R100) -/

/-- Adding a delay and taking it off again leaves a position of the cycle as it was. -/
theorem correctedOf_add {t d m : Nat} (h : t < 2 * m) : correctedOf ((t + d) % (2 * m)) d m = t := by
  have hcast : (((t + d) % (2 * m) : Nat) : Int) - d = (t + d : Int) % (2 * m : Nat) - d := by push_cast; rfl
  rw [correctedOf, hcast, Int.emod_sub_emod, add_sub_cancel_right, Int.emod_eq_of_lt (by omega) (by omega),
    Int.toNat_natCast]

theorem loadOf_eq {t d p : Nat} (hp : 0 < p) : ∃ c down, loadOf t d p = .load c down ∧ c ≤ p ∧ (c = 0 → down = false) ∧
    (down = false → c = (t + d) % (2 * p)) ∧ (down = true → 2 * p - c = (t + d) % (2 * p)) := by
  have hu : (t + d) % (2 * p) < 2 * p := Nat.mod_lt _ (by omega)
  by_cases h : (t + d) % (2 * p) < p
  · exact ⟨_, false, if_pos h, by omega, fun _ => rfl, fun _ => rfl, by simp⟩
  · exact ⟨_, true, if_neg h, by omega, by omega, by simp, fun _ => by omega⟩

theorem wrapError_bounds {raw : Int} {p : Nat} (hl : -(2 * p : Int) < raw) (hh : raw < 2 * p) :
    -(p : Int) < wrapError raw p ∧ wrapError raw p ≤ p ∧
      (wrapError raw p = raw ∨ wrapError raw p = raw - 2 * p ∨ wrapError raw p = raw + 2 * p) := by
  simp only [wrapError]
  split
  · omega
  · split <;> omega

/-- Settles O60. -/
theorem carrierArithmetic : Obligations.CarrierArithmetic := by
  unfold Obligations.CarrierArithmetic
  refine fun p hp _ => ⟨fun base k n => ⟨Nat.mod_lt _ (by omega), rfl⟩, fun t d ht => ?_,
    fun raw => wrapError_bounds, fun e j => ?_⟩
  · obtain ⟨c, down, hload, hc, hzero, hup, hdown⟩ := loadOf_eq (t := t) (d := d) (p := p) (by omega)
    exact ⟨c, down, hload, hc, hzero, hup, hdown, correctedOf_add ht⟩
  · by_cases h : e.natAbs ≤ j
    · simp [trimOf, h]
    · have hne : e ≠ 0 := fun he => h (by simp [he])
      simp [trimOf, h, Int.natAbs_mul, Int.natAbs_sign_of_ne_zero hne]

end Sys2Proof.Machine

/-! ### Downstream frames and replies sent (R139, R148, R151, R160) -/

namespace Sys2Proof.Machine

namespace State

variable {s : State}

theorem Settled.exec_refFrame (h : s.Settled) (f : RefFrame) : exec (.refFrame f) s = .next (s.receiveRef f) := by
  rw [exec, execRefFrame, h.between_eq]

theorem Settled.exec_mgtFrame (h : s.Settled) {f : MgtFrame} (hf : f.payload.length ≤ 120) :
    exec (.mgtFrame f) s = .next (s.receiveMgt f) := by
  rw [exec, execMgtFrame, h.between_eq, arriveMgt, if_pos hf]

theorem Settled.exec_badDownstreamFrame (h : s.Settled) (bytes : List Byte) :
    exec (.badDownstreamFrame bytes) s = .next (s.arriveBytes bytes) := by
  rw [exec, execBadDownstreamFrame, h.between_eq]

theorem Settled.exec_replySent (h : s.Settled) : exec .replySent s = .next s.replyEnds := by
  rw [exec, execReplySent, h.between_eq]

theorem Settled.exec_warmResetEffect (h : s.Settled) (hw : s.mga.warmPending = true) :
    exec .warmResetEffect s = .next s.warmReset := by
  rw [exec, execWarmResetEffect, h.between_eq, warmEffect, if_pos hw]

theorem full_eq_false_iff {b : Buffer} : b.full = false ↔ b = .free := by cases b <;> simp [Buffer.full]

theorem receiveMgt_first {f : MgtFrame} (h : s.mga.buf0 = .free) : s.receiveMgt f = s.placeRequest 0 f :=
  if_pos (by simp [h, Buffer.full])

theorem receiveMgt_second {f : MgtFrame} (h0 : s.mga.buf0 ≠ .free) (h1 : s.mga.buf1 = .free) :
    s.receiveMgt f = s.placeRequest 1 f := by
  rw [receiveMgt, if_neg (by simpa [full_eq_false_iff] using h0), if_pos (by simp [h1, Buffer.full])]

theorem receiveMgt_dropped {f : MgtFrame} (h0 : s.mga.buf0 ≠ .free) (h1 : s.mga.buf1 ≠ .free) :
    s.receiveMgt f = s.raise .reqDropped := by
  rw [receiveMgt, if_neg (by simpa [full_eq_false_iff] using h0), if_neg (by simpa [full_eq_false_iff] using h1)]

end State

/-- Settles O25. -/
theorem downstreamFramesRouted : Obligations.DownstreamFramesRouted := by
  unfold Obligations.DownstreamFramesRouted
  refine fun s hs => ⟨fun bytes hb => ?_, fun bytes f hf => ?_, fun bytes f hf => ?_, fun f hlen => ?_⟩
  · rw [hs.exec_badDownstreamFrame, State.arriveBytes, hb]
    rfl
  · rw [hs.exec_badDownstreamFrame, State.arriveBytes, hf, hs.exec_refFrame]
  · obtain ⟨-, hlen⟩ := (mgtFrameRoundTrip bytes f).mp hf
    rw [hs.exec_badDownstreamFrame, State.arriveBytes, hf, hs.exec_mgtFrame hlen]
  · rw [hs.exec_mgtFrame hlen]
    refine ⟨fun h => ?_, fun h0 h1 => ?_, fun h0 h1 => ?_⟩
    · rw [State.receiveMgt_first h]
      rfl
    · rw [State.receiveMgt_second h0 h1]
      rfl
    · rw [State.receiveMgt_dropped h0 h1]
      rfl

namespace State

variable {s : State} {pre post : List UpFrame} {b : Fin 2} {r : Reply}

/-- What is sent through the first frame of a kind leaves the frames behind it. -/
theorem sentThrough_split {c : UpFrame → Bool} {x : UpFrame} (hpre : ∀ y ∈ pre, c y = false) (hx : c x = true) :
    sentThrough c (pre ++ x :: post) = post := by
  have hdrop : (pre ++ x :: post).dropWhile (fun f => !c f) = x :: post := by
    rw [List.dropWhile_append_of_pos (by simpa using hpre), List.dropWhile_cons_of_neg (by simp [hx])]
  rw [sentThrough, if_pos (by simp [hx]), hdrop, List.drop_one, List.tail_cons]

theorem sentThrough_of_none {c : UpFrame → Bool} (h : ∀ y ∈ pre, c y = false) : sentThrough c pre = pre :=
  if_neg (by simpa using h)

theorem isWarmReply_iff : isWarmReply r = true ↔ r.code.toNat = 8 ∧ r.result = .done := by
  simp [isWarmReply, codeWarmReset]

theorem isWarmFrame_of_isDigest {x : UpFrame} (h : x.isDigest = true) : isWarmFrame x = false := by
  cases x with
  | digest d => rfl
  | reply b r => cases h

theorem oldestReply?_split (hq : s.cli.upstream = pre ++ .reply b r :: post) (hpre : ∀ x ∈ pre, x.isDigest = true) :
    s.oldestReply? = some (b, r) := by
  rw [oldestReply?, hq]
  clear hq
  induction pre with
  | nil => rfl
  | cons x pre ih =>
    cases x with
    | digest d => exact ih (fun y hy => hpre y (List.mem_cons_of_mem _ hy))
    | reply b r => cases hpre _ List.mem_cons_self

theorem oldestReply?_none (h : ∀ x ∈ s.cli.upstream, x.isDigest = true) : s.oldestReply? = none := by
  rw [oldestReply?, List.findSome?_eq_none_iff]
  intro x hx
  cases x with
  | digest d => rfl
  | reply b r => cases h _ hx

theorem replyEnds_warm (hq : s.cli.upstream = pre ++ .reply b r :: post) (hpre : ∀ x ∈ pre, x.isDigest = true)
    (hw : s.mga.warmPending = true) (hr : isWarmReply r = true) : s.replyEnds = s.warmReset := by
  simp [replyEnds, oldestReply?_split hq hpre, hw, hr]

theorem replyEnds_sent (hq : s.cli.upstream = pre ++ .reply b r :: post) (hpre : ∀ x ∈ pre, x.isDigest = true)
    (h : ¬(s.mga.warmPending = true ∧ isWarmReply r = true)) : s.replyEnds = s.sendReply b := by
  simp [replyEnds, oldestReply?_split hq hpre, h]

theorem sendReply_upstream (hq : s.cli.upstream = pre ++ .reply b r :: post) (hpre : ∀ x ∈ pre, x.isDigest = true) :
    (s.sendReply b).cli = { s.cli with upstream := post } := by
  have hsent : sentThrough (fun f => !f.isDigest) s.cli.upstream = post := by
    rw [hq]
    exact sentThrough_split (by simpa using hpre) rfl
  rw [← hsent]
  rfl

theorem warmReset_upstream (s : State) : s.warmReset.cli.upstream = sentThrough isWarmFrame s.cli.upstream := by
  have hcli (t : State) (c : Bool) (f : Flag) : (t.raiseIf c f).cli.upstream = t.cli.upstream := by
    cases c <;> rfl
  simp [warmReset, hcli, warmControl]

/-- The end of the oldest reply leaves on the list what stands behind it, whether or not a warm reset goes with it. -/
theorem replyEnds_upstream (hq : s.cli.upstream = pre ++ .reply b r :: post) (hpre : ∀ x ∈ pre, x.isDigest = true) :
    s.replyEnds.cli.upstream = post := by
  by_cases h : s.mga.warmPending = true ∧ isWarmReply r = true
  · rw [replyEnds_warm hq hpre h.1 h.2, warmReset_upstream, hq]
    exact sentThrough_split (fun y hy => isWarmFrame_of_isDigest (hpre y hy)) h.2
  · rw [replyEnds_sent hq hpre h, sendReply_upstream hq hpre]

theorem dueUpstream_split {d : Digest} (hq : s.cli.upstream = pre ++ .digest d :: post)
    (hpost : ∀ x ∈ post, x.isDigest = false) : s.dueUpstream = pre ++ [.digest d] := by
  have hdrop : (post.reverse ++ (.digest d :: pre.reverse)).dropWhile (fun f => !f.isDigest) =
      .digest d :: pre.reverse := by
    rw [List.dropWhile_append_of_pos (by simpa using hpost)]
    rfl
  rw [dueUpstream, hq]
  simp [hdrop]

theorem dueUpstream_nil (h : ∀ x ∈ s.cli.upstream, x.isDigest = false) : s.dueUpstream = [] := by
  simpa [dueUpstream, List.dropWhile_eq_nil_iff] using h

theorem exists_oldest (h : ∃ x ∈ pre, x.isDigest = false) :
    ∃ digests b r rest, pre = digests ++ .reply b r :: rest ∧ ∀ x ∈ digests, x.isDigest = true := by
  induction pre with
  | nil => simp at h
  | cons x pre ih =>
    cases x with
    | reply b r => exact ⟨[], b, r, pre, rfl, by simp⟩
    | digest d =>
      obtain ⟨digests, b, r, rest, hpre, hdigests⟩ := ih (by simpa [UpFrame.isDigest] using h)
      exact ⟨.digest d :: digests, b, r, rest, by rw [hpre, List.cons_append], by simpa [UpFrame.isDigest] using hdigests⟩

/-- Where a reply stands before the last digest, the oldest one is sent first, and then those that are still due. -/
theorem sendDue_step {d : Digest} (hq : s.cli.upstream = pre ++ .digest d :: post)
    (hpost : ∀ x ∈ post, x.isDigest = false) (hreply : ∃ x ∈ pre, x.isDigest = false) :
    s.sendDue = s.replyEnds.sendDue := by
  obtain ⟨digests, b, r, rest, rfl, hdigests⟩ := exists_oldest hreply
  have hleft : s.replyEnds.cli.upstream = rest ++ .digest d :: post :=
    replyEnds_upstream (b := b) (r := r) (by rw [hq, List.append_assoc, List.cons_append]) hdigests
  have hnone : digests.filter (fun f => !f.isDigest) = [] := by simpa using hdigests
  rw [sendDue, sendDue, dueUpstream_split hq hpost, dueUpstream_split hleft hpost, List.append_assoc, List.filter_append,
    hnone]
  rfl

end State

/-- Settles O26: by where the oldest reply and the last digest stand on the list. -/
theorem replySentFreesBuffer : Obligations.ReplySentFreesBuffer := by
  unfold Obligations.ReplySentFreesBuffer
  refine fun s hs => ⟨fun pre post b r hq hpre => ⟨fun h => ?_, fun hw hc hr => ?_⟩, fun h => ?_, fun h => ?_,
    fun pre post d hq hpost => ⟨fun h => ?_, fun h => ?_⟩⟩
  · rw [hs.exec_replySent, State.replyEnds_sent hq hpre ?_, ← State.sendReply_upstream hq hpre]
    · rfl
    · rw [State.isWarmReply_iff]
      rintro ⟨hw, hc, hr⟩
      rcases h with h | h | h
      · simp [hw] at h
      · exact h hc
      · exact h hr
  · rw [hs.exec_replySent, hs.exec_warmResetEffect hw,
      State.replyEnds_warm hq hpre hw (State.isWarmReply_iff.mpr ⟨hc, hr⟩)]
  · simp [hs.exec_replySent, State.replyEnds, State.oldestReply?_none h]
  · refine s.sendDue_of_digestsFirst ?_
    rw [State.dueUpstream_nil h]
    simp
  · refine s.sendDue_of_digestsFirst ?_
    rw [State.dueUpstream_split hq hpost]
    intro x hx
    rcases List.mem_append.mp hx with hx | hx
    · exact h x hx
    · rw [List.mem_singleton.mp hx]
      rfl
  · exact ⟨_, hs.exec_replySent, State.sendDue_step hq hpost h⟩

/-! ### Status frames discarded (R129) -/

namespace State

variable {s : State}

theorem Settled.exec_stsFrame (h : s.Settled) (p : Port) (bytes : List Byte) (late : Bool) :
    exec (.stsFrame p ⟨bytes, late⟩) s = .next (s.receiveSts p bytes late) := by
  rw [exec, execStsFrame, betweenFrames, unlessHeld_of_running h.running]
  split
  · rfl
  · rw [h.finishPeriod_eq]

theorem sends_iff {l : LinkState} : l.sends = true ↔ l = .linking ∨ l = .up ∨ l = .missing := by
  cases l <;> simp [LinkState.sends]

section

variable {p : Port} {bytes : List Byte} {f : StsFrame}

theorem judgeSts_malformed (hc : s.checkSts bytes = none) : s.judgeSts p bytes = .malformed := by rw [judgeSts, hc]

theorem judgeSts_wrongPort (hc : s.checkSts bytes = some f) (hp : f.port.toNat ≠ p.val) :
    s.judgeSts p bytes = .wrongPort := by
  simp [judgeSts, hc, hp]

theorem judgeSts_stale (hc : s.checkSts bytes = some f) (hp : f.port.toNat = p.val)
    (hl : (s.link p).state = .idle ∨ (s.link p).state = .lost ∨ (s.link p).tagSent ≠ some f.tag) :
    s.judgeSts p bytes = .stale := by
  have hstale : ((s.link p).state.sends && (s.link p).tagSent == some f.tag) = false := by
    rcases hl with h | h | h <;> simp [h, LinkState.sends]
  simp [judgeSts, hc, hp, hstale]

theorem judgeSts_current (hc : s.checkSts bytes = some f) (hp : f.port.toNat = p.val)
    (hl : (s.link p).state = .linking ∨ (s.link p).state = .up ∨ (s.link p).state = .missing)
    (ht : (s.link p).tagSent = some f.tag) :
    s.judgeSts p bytes = if (s.link p).accepted then .repeated else .accepted f := by
  simp [judgeSts, hc, hp, sends_iff.mpr hl, ht]

end

end State

/-- Settles O27: the four checks of `judgeSts` in turn. -/
theorem statusFrameDiscarded : Obligations.StatusFrameDiscarded := by
  unfold Obligations.StatusFrameDiscarded
  refine fun p bytes late s hs => ⟨fun hc => ?_, fun f hc hp => ?_, fun f hc hp hl => ?_, fun f hc hp hl ht ha => ?_⟩ <;>
    rw [hs.exec_stsFrame, State.receiveSts]
  · rw [State.judgeSts_malformed hc]
    rfl
  · rw [State.judgeSts_wrongPort hc hp]
    rfl
  · rw [State.judgeSts_stale hc hp hl]
    rfl
  · rw [State.judgeSts_current hc hp hl ht, if_pos ha]
    rfl

end Sys2Proof.Machine

/-! ### The departure from RUN and trips (R18, R51, R69, R134, R166, R167) -/

namespace Sys2Proof.Machine

namespace State

variable {s t : State} {x : Phase}

/-- Where cells only leave a string, and those that stay keep their positions, the string keeps its order. -/
theorem phaseString_of_subset (h : ∀ p, phaseOf p = x → (t.entry p).inString = true →
    (s.entry p).inString = true ∧ (t.entry p).position = (s.entry p).position) :
    t.phaseString x = (s.phaseString x).filter (fun p => (t.entry p).inString) := by
  refine phaseString_eq (fun p => ?_) (((s.phaseString_pairwise x).filter _).imp_of_mem (fun {p q} hp hq hlt => ?_))
  · rw [List.mem_filter, mem_phaseString]
    exact ⟨fun hp => ⟨hp.1.1, hp.2⟩, fun hp => ⟨⟨hp.1, (h p hp.1 hp.2).1⟩, hp.2⟩⟩
  · obtain ⟨hp, hpt⟩ := List.mem_filter.mp hp
    obtain ⟨hq, hqt⟩ := List.mem_filter.mp hq
    rw [stringKey, stringKey, (h p (mem_phaseString.mp hp).1 hpt).2, (h q (mem_phaseString.mp hq).1 hqt).2]
    exact hlt

theorem compactedEntry_eq (s : State) (p : Port) (e : RosterEntry) : ∃ role place target mark,
    s.compactedEntry p e = { e with role := role, position := place, insertionTarget := target, deferred := mark } := by
  simp only [compactedEntry]
  repeat' split
  all_goals exact ⟨_, _, _, _, rfl⟩

/-- Compaction leaves in a string the cells it leaves ACTIVE, in their places. -/
theorem compactedEntry_active (s : State) (p : Port) (e : RosterEntry) :
    (s.compactedEntry p e).inString = decide ((s.compactedEntry p e).role = .active) ∧
      ((s.compactedEntry p e).inString = true → e.inString = true ∧ (s.compactedEntry p e).position = e.position) := by
  cases hr : e.role <;> simp only [compactedEntry, hr]
  case active => split <;> simp [RosterEntry.inString, hr]
  case isolating => split <;> simp [RosterEntry.inString]
  all_goals simp [RosterEntry.inString, hr]

/-- What a departure makes of an entry, but for its place. -/
theorem departRun_entry_eq (s : State) (m : Mode) (p : Port) :
    (s.departRun m).entry p =
      { s.compactedEntry p (s.entry p) with position := ((s.departRun m).entry p).position } := by
  rw [departRun_entry]
  exact renumbered_eq _ p _

theorem departRun_entry_fields (s : State) (m : Mode) (p : Port) : ∃ role place target mark,
    (s.departRun m).entry p =
      { s.entry p with role := role, position := place, insertionTarget := target, deferred := mark } := by
  obtain ⟨role, place, target, mark, he⟩ := s.compactedEntry_eq p (s.entry p)
  refine ⟨role, ((s.departRun m).entry p).position, target, mark, ?_⟩
  have h := s.departRun_entry_eq m p
  rwa [he] at h

theorem departRun_role (s : State) (m : Mode) (p : Port) :
    ((s.departRun m).entry p).role = (s.compactedEntry p (s.entry p)).role := by
  rw [departRun_entry_eq]

/-- R18: a departure keeps in each string the cells it leaves ACTIVE, in their order. -/
theorem departRun_phaseString (s : State) (m : Mode) (x : Phase) :
    (s.departRun m).phaseString x =
      (s.phaseString x).filter (fun p => ((s.departRun m).entry p).role = .active) := by
  have hrenumbered : (s.departRun m).phaseString x = (s.mapEntries s.compactedEntry).phaseString x :=
    phaseString_of_renumbered (fun p _ => by rw [departRun_entry, mapEntries_entry])
  rw [hrenumbered, phaseString_of_subset (s := s)
    (fun p _ hp => by rw [mapEntries_entry] at hp ⊢; exact (s.compactedEntry_active p _).2 hp)]
  refine List.filter_congr (fun p _ => ?_)
  rw [mapEntries_entry, (s.compactedEntry_active p _).1, departRun_role]

/-- The sequencer, the queue and the window at a departure, once the strings are compacted. -/
theorem departRest_eq (u : State) (m : Mode) :
    (((u.pruneQueue).sequencerRest).closeWindow).setMode m =
      { u with mode := m
               rsq := { u.rsq with stage := .normal, nest := [], grantPending := false, resumeIndex := 0
                                   inhibitCount := 0, rampGain := 1024 }
               bau := { u.bau with queue := u.bau.queue.filter (fun a => a.dir == .closed || a.issued.isSome)
                                   settleCount := 0, blindStart := Vector.replicate 24 none }
               ctu := { u.ctu with windowStart := none }, ps := { u.ps with settleDone := false } } := rfl

/-- A departure changes the mode, the roster, the queue, the window, the links and the sequencer, and nothing else. -/
theorem departRun_eq (s : State) (m : Mode) :
    s.departRun m =
      { s with mode := m, roster := s.urgentBlock.compact.roster, links := s.urgentBlock.links
               rsq := { s.rsq with stage := .normal, nest := [], grantPending := false, resumeIndex := 0
                                   inhibitCount := 0, rampGain := 1024 }
               bau := { s.bau with queue := s.bau.queue.filter (fun a => a.dir == .closed || a.issued.isSome)
                                   settleCount := 0, blindStart := Vector.replicate 24 none }
               ctu := { s.ctu with windowStart := none }, ps := { s.ps with settleDone := false } } := by
  rw [departRun, departRest_eq]
  simp

theorem urgentBlock_link (s : State) (p : Port) : s.urgentBlock.link p =
    { s.link p with transmit := if (s.link p).state.sends then (s.link p).transmit ++ [s.urgentFrame p .block]
                                else (s.link p).transmit } := by
  rw [urgentBlock, mapLinks_link]
  split <;> rfl

theorem departRun_link (s : State) (m : Mode) (p : Port) : (s.departRun m).link p = s.urgentBlock.link p := by
  rw [departRun_eq]
  rfl

end State

/-- Settles O40: compaction entry by entry, and the strings it leaves. -/
theorem departureFromRun : Obligations.DepartureFromRun := by
  unfold Obligations.DepartureFromRun
  intro s m hm t
  have ht : t = s.departRun m := rfl
  clear_value t
  subst ht
  refine ⟨s.departRun_mode m, by rw [State.departRun_eq], by rw [State.departRun_eq], by rw [State.departRun_eq],
    Bool.eq_false_iff.mpr fun h => hm ?_, by rw [State.departRun_eq], fun p => ?_, by rw [State.departRun_eq],
    fun p => ?_, fun p => ?_, fun p hp => ?_, fun p hp => ?_, fun p => ?_, s.departRun_phaseString m,
    s.departRun_numbered m, ?_⟩
  · simpa using ((State.torqueGap_iff _).mp h).1
  · rw [State.departRun_eq]
    exact Vector.getElem_replicate _
  · rw [State.departRun_link, State.urgentBlock_link]
  · rw [State.departRun_role]
    cases hr : (s.entry p).role <;> simp only [State.compactedEntry, hr]
    split
    · rfl
    · exact hr
  · rw [State.departRun_entry_eq]
    simp [State.compactedEntry, hp]
  · rw [State.departRun_entry_eq]
    simp only [State.compactedEntry, hp]
    split <;> simp_all
  · obtain ⟨role, place, target, mark, he⟩ := s.departRun_entry_fields m p
    rw [he]
  · rw [State.departRun_eq]

namespace State

/-- A record written: the log has it, and LOG_WRITTEN is raised. -/
theorem writeLog_eq (s : State) (e : LogEntry) :
    s.writeLog e = { s with
      log := { next := s.log.next + 1, records := keepSixteen (s.log.records ++ [s.recordOf e]) }
      cli := { s.cli with flags := withFlag s.cli.flags .logWritten } } := rfl

@[simp] theorem writeLog_link (s : State) (e : LogEntry) (p : Port) : (s.writeLog e).link p = s.link p := rfl

@[simp] theorem writeLog_entry (s : State) (e : LogEntry) (p : Port) : (s.writeLog e).entry p = s.entry p := rfl

@[simp] theorem writeLog_urgentFrame (s : State) (e : LogEntry) (p : Port) (c : Command) :
    (s.writeLog e).urgentFrame p c = s.urgentFrame p c := rfl

end State

/-- Settles O39: the departure of the state with the record. -/
theorem tripRequestDeparts : Obligations.TripRequestDeparts := by
  unfold Obligations.TripRequestDeparts
  refine fun s r => ⟨fun hm => State.requestTrip_of_not_run hm r, fun hm => ?_⟩
  intro t
  have ht : t = (s.writeLog (s.tripEntry r)).departRun .tripped := State.requestTrip_of_run hm r
  clear_value t
  have heq := ht
  rw [State.departRun_eq, State.writeLog_eq] at heq
  have hlog : t.log = { next := s.log.next + 1, records := keepSixteen (s.log.records ++ [s.recordOf (s.tripEntry r)]) } := by
    rw [heq]
  refine ⟨?_, by rw [heq], ?_, by rw [heq], by rw [heq], fun p => ?_, by rw [heq], fun q => ?_, ?_⟩
  · rw [hlog]
    exact ht
  · rw [hlog]
    simp [State.recordOf, State.tripEntry, State.entryNow, hm, State.nestDepth]
  · rw [heq]
    exact Vector.getElem_replicate _
  · rw [ht, State.departRun_link, State.urgentBlock_link]
    simp only [← State.sends_iff, State.writeLog_link, State.writeLog_urgentFrame]
    rfl
  · rw [heq]

/-! ### The safety stop input (R168) -/

theorem RosterEntry.inString_eq_false {e : RosterEntry} (ha : e.role ≠ .active) (hi : e.role ≠ .isolating) :
    e.inString = false := by
  rw [RosterEntry.inString]
  split <;> simp_all

namespace State

variable {s : State}

theorem Settled.exec_safetyStopFall (h : s.Settled) :
    exec .safetyStopFall s = .next (if s.lines.safetyStopN then s.fallSafety else s) := by
  rw [exec, execSafetyStopFall, safetyFall, h.finishPeriod_eq]
  simp [h.running]

theorem Settled.exec_safetyStopRise (h : s.Settled) :
    exec .safetyStopRise s = .next (if s.lines.safetyStopN then s else s.setSafety true) := by
  rw [exec, execSafetyStopRise, safetyRise, h.finishPeriod_eq]
  simp [h.running]

/-- The part with SAFETY_STOP_N low and the record of its fall written. -/
def fallRecorded (s : State) : State :=
  (s.setLines { s.lines with safetyStopN := false }).writeLog
    ((s.setLines { s.lines with safetyStopN := false }).entryNow .safetyStop none)

@[simp] theorem fallRecorded_entry (s : State) (p : Port) : s.fallRecorded.entry p = s.entry p := rfl
@[simp] theorem fallRecorded_link (s : State) (p : Port) : s.fallRecorded.link p = s.link p := rfl

theorem fallSafety_run (hm : s.mode = .run) : s.fallSafety = s.fallRecorded.departRun .safeStop := by
  rw [fallSafety, hm]
  rfl

theorem fallSafety_standby (hm : s.mode = .standby) :
    s.fallSafety = ((s.fallRecorded.renumber).setMode .safeStop).urgentBlock := by
  rw [fallSafety, hm]
  rfl

theorem fallSafety_tripped (hm : s.mode = .tripped) : s.fallSafety = (s.fallRecorded.setMode .safeStop).urgentBlock := by
  rw [fallSafety, hm]
  rfl

theorem fallSafety_safeStop (hm : s.mode = .safeStop) :
    s.fallSafety = s.setLines { s.lines with safetyStopN := false } := by
  rw [fallSafety, hm]

/-- The urgent BLOCK changes the transmit lists and nothing else. -/
theorem urgentBlock_eq (s : State) : s.urgentBlock = { s with links := s.urgentBlock.links } := rfl

theorem mapEntries_eq (s : State) (f : Port → RosterEntry → RosterEntry) :
    s.mapEntries f = { s with roster := (s.mapEntries f).roster } := rfl

theorem renumber_eq (s : State) : s.renumber = { s with roster := s.renumber.roster } := s.mapEntries_eq s.renumbered

theorem fallRecorded_eq (s : State) :
    s.fallRecorded = { s with
      lines := { s.lines with safetyStopN := false }, cli := { s.cli with flags := withFlag s.cli.flags .logWritten }
      log := ⟨s.log.next + 1, keepSixteen (s.log.records ++
        [{ sequence := s.log.next, stamp := s.ctu.counter, port := none, kind := .safetyStop, word := none
           mode := s.mode, stage := s.rsq.stage, restartNumber := s.rsq.restartNumber
           nestDepth := s.rsq.nest.length, deficits := none }])⟩ } := rfl

theorem renumber_urgentFrame (s : State) (p : Port) (c : Command) :
    s.renumber.urgentFrame p c = s.urgentFrame p c := by
  have horder : (s.renumber.entry p).bypassOrder = (s.entry p).bypassOrder := by
    rw [renumber_entry, renumbered_eq]
  simp [urgentFrame, horder, tag]

theorem fallSafety_standby_entry (hm : s.mode = .standby) (p : Port) :
    s.fallSafety.entry p = s.renumber.entry p := by
  rw [fallSafety_standby hm, urgentBlock_entry]
  rfl

theorem fallSafety_standby_link (hm : s.mode = .standby) (p : Port) : s.fallSafety.link p = s.urgentBlock.link p := by
  have hframe : ((s.fallRecorded.renumber).setMode .safeStop).urgentFrame p .block = s.urgentFrame p .block :=
    s.fallRecorded.renumber_urgentFrame p .block
  rw [fallSafety_standby hm, urgentBlock_link, urgentBlock_link, hframe]
  rfl

theorem fallSafety_tripped_link (hm : s.mode = .tripped) (p : Port) : s.fallSafety.link p = s.urgentBlock.link p := by
  rw [fallSafety_tripped hm, urgentBlock_link, urgentBlock_link]
  rfl

/-- A fall in STANDBY or TRIPPED changes the mode, the line, the log with its flag, the positions and the lists. -/
theorem fallSafety_idle_eq (hm : s.mode = .standby ∨ s.mode = .tripped) :
    s.fallSafety = { s.fallRecorded with mode := .safeStop, roster := s.fallSafety.roster
                                         links := s.fallSafety.links } := by
  rcases hm with hm | hm
  · rw [fallSafety_standby hm, urgentBlock_eq, renumber_eq]
    rfl
  · rw [fallSafety_tripped hm, urgentBlock_eq]
    rfl

end State

/-- Settles O18: by the mode in which the line falls. -/
theorem safetyStopInput : Obligations.SafetyStopInput := by
  unfold Obligations.SafetyStopInput
  intro s hs lines cli log
  refine ⟨fun hl hm => ?_, fun hl hm hstage hnest => ?_, fun hl hm => ?_, fun hl => ?_, fun hl => ⟨?_, ?_⟩⟩
  · rw [hs.exec_safetyStopFall, if_pos hl, State.fallSafety_run hm, State.fallRecorded_eq, hm]
  · refine ⟨s.fallSafety, by rw [hs.exec_safetyStopFall, if_pos hl], ?_⟩
    have hlinks (p : Port) : s.fallSafety.link p = s.urgentBlock.link p :=
      hm.elim (fun hm => State.fallSafety_standby_link hm p) (fun hm => State.fallSafety_tripped_link hm p)
    have hshape := State.fallSafety_idle_eq hm
    rw [State.fallRecorded_eq, hstage, hnest] at hshape
    refine ⟨fun p => ?_, fun p ha hi => ?_, fun ht => ?_, fun hm x => ?_, fun p => ?_, hshape⟩
    · rcases hm with hm | hm
      · rw [State.fallSafety_standby_entry hm, State.renumber_entry]
        exact s.renumbered_eq p _
      · rw [State.fallSafety_tripped hm, State.urgentBlock_entry]
        rfl
    · rcases hm with hm | hm
      · rw [State.fallSafety_standby_entry hm, State.renumber_entry]
        exact s.renumbered_of_not_inString p (RosterEntry.inString_eq_false ha hi)
      · rw [State.fallSafety_tripped hm, State.urgentBlock_entry]
        rfl
    · rw [State.fallSafety_tripped ht, State.urgentBlock_eq]
      rfl
    · have hentry (p : Port) (_ : phaseOf p = x) : s.fallSafety.entry p = s.renumbered p (s.entry p) := by
        rw [State.fallSafety_standby_entry hm, State.renumber_entry]
      exact ⟨State.phaseString_of_renumbered hentry, State.numbered_of_renumbered hentry⟩
    · rw [hlinks, State.urgentBlock_link]
  · rw [hs.exec_safetyStopFall, if_pos hl, State.fallSafety_safeStop hm]
    rfl
  · rw [hs.exec_safetyStopRise, if_pos hl]
  · rw [hs.exec_safetyStopFall, if_neg (by simp [hl])]
  · rw [hs.exec_safetyStopRise, if_neg (by simp [hl])]
    rfl

end Sys2Proof.Machine

namespace Sys2Proof.Machine

/-- Two states that agree in every block are one state. -/
theorem State.eq_of_fields {s t : State} (lines : s.lines = t.lines) (mode : s.mode = t.mode)
    (roster : s.roster = t.roster) (policyStaged : s.policyStaged = t.policyStaged)
    (policyActive : s.policyActive = t.policyActive) (rsq : s.rsq = t.rsq) (bau : s.bau = t.bau)
    (rebalStaged : s.rebalStaged = t.rebalStaged) (rebalActive : s.rebalActive = t.rebalActive) (rtu : s.rtu = t.rtu)
    (ctu : s.ctu = t.ctu) (screenStaged : s.screenStaged = t.screenStaged)
    (screenActive : s.screenActive = t.screenActive) (ssc : s.ssc = t.ssc) (links : s.links = t.links)
    (cli : s.cli = t.cli) (mga : s.mga = t.mga) (settings : s.settings = t.settings) (log : s.log = t.log)
    (ps : s.ps = t.ps) (pending : s.pending = t.pending) : s = t := by
  cases s
  cases t
  simp only [State.mk.injEq]
  exact ⟨lines, mode, roster, policyStaged, policyActive, rsq, bau, rebalStaged, rebalActive, rtu, ctu, screenStaged,
    screenActive, ssc, links, cli, mga, settings, log, ps, pending⟩

/-! ### The warm reset (R3, R22, R70, R77, R108, R118, R124, R149, R160, R170) -/

namespace State

variable {s : State}

theorem warmBypass_congr {t : State} (h : t.bau.queue = s.bau.queue) : t.warmBypass = s.warmBypass := by
  have hflight : t.inFlight? = s.inFlight? := by simp only [inFlight?, h]
  funext b
  simp only [warmBypass, hflight]

theorem warmReset_eq (s : State) :
    s.warmReset = { s with
      mode := s.modeByLine, roster := s.warmReset.roster, links := s.warmReset.links
      rsq := warmSequencer s.rsq, bau := s.warmBypass s.bau, rtu := warmTransform s.rtu
      ctu := { s.ctu with ports := s.warmReset.ctu.ports, windowStart := none }, ssc := { s.ssc with leakCount := 0 }
      cli := { warmControl s.settings.refHoldLimit s.cli with flags := withFlagIf s.cli.flags s.warmDrops .reqDropped }
      mga := warmAgent s.mga } := by
  apply State.eq_of_fields
  case mode => exact s.warmReset_mode
  case rsq => exact s.warmReset_rsq
  case bau =>
    simp only [warmReset, raiseIf_eq]
    simp only [updMga_bau, updCli_bau, updSsc_bau, updCtu_bau, updRtu_bau, updBau_bau]
    rw [warmBypass_congr (s := s) (by simp)]
    simp
  case ctu =>
    simp [warmReset]
  case cli =>
    simp [warmReset, raiseIf_eq, warmControl]
  all_goals simp [warmReset]

theorem warmReset_cport (s : State) (p : Port) : s.warmReset.cport p = warmCport (s.cport p) := by
  have hports : s.warmReset.ctu.ports = (s.warmMode.mapCports (fun _ c => warmCport c)).ctu.ports := by
    simp [warmReset]
  have hkept : s.warmMode.cport p = s.cport p := by simp [cport]
  rw [cport, hports, ← cport, mapCports_cport, hkept]

theorem warmReset_link (s : State) (p : Port) :
    s.warmReset.link p = warmLink p (s.warmMode.entry p) (s.warmMode.link p) := by
  have hlinks : s.warmReset.links = (s.warmMode.mapLinks (fun p l => warmLink p (s.warmMode.entry p) l)).links := by
    simp [warmReset]
  rw [link, hlinks, ← link, mapLinks_link]

/-- With the line as the mode says, a warm reset leaves positions and orders no urgent frame. -/
theorem warmMode_of_settled (h : s.lines.safetyStopN = true ∨ s.mode = .safeStop) :
    s.warmMode = s.setMode s.modeByLine := by
  refine if_neg (fun hlow => ?_)
  rcases h with h | h
  · simp [modeByLine, h] at hlow
  · exact hlow.2 h

theorem warmMode_of_low (hl : s.lines.safetyStopN = false) (hm : s.mode ≠ .safeStop) :
    s.warmMode = (s.urgentBlock.renumber).setMode .safeStop :=
  if_pos ⟨by simp [modeByLine, hl], hm⟩

/-- The links a warm reset meets: as they were, but for the urgent BLOCK where it orders one. -/
theorem warmMode_link (s : State) (p : Port) :
    s.warmMode.link p = { s.link p with transmit := (s.warmMode.link p).transmit } := by
  rw [warmMode]
  split
  · have hlink : ((s.urgentBlock.renumber).setMode .safeStop).link p = s.urgentBlock.link p := by
      simp [link]
    rw [hlink, urgentBlock_link]
  · rfl

theorem warmMode_entry_eq (s : State) (p : Port) :
    s.warmMode.entry p = { s.entry p with position := (s.warmMode.entry p).position } := by
  rw [warmMode_entry]
  split
  · exact s.renumbered_eq p _
  · rfl

theorem warmReset_retry (s : State) (p : Port) :
    s.warmReset.bau.retry[p.val] = (s.bau.retry[p.val] || s.inFlight?.any (fun a => a.port == p)) := by
  have hbau : s.warmReset.bau = s.warmBypass s.bau := by rw [warmReset_eq]
  rw [hbau]
  rcases hf : s.inFlight? with - | a <;> simp only [warmBypass, hf]
  · simp
  · by_cases h : a.port = p
    · subst h
      simp
    · rw [Vector.getElem_set_ne _ _ (fun hv => h (Fin.ext hv))]
      simp [h]

end State

/-- Settles O17: block by block, and the strings where the positions are renumbered. -/
theorem warmResetTakesEffect : Obligations.WarmResetTakesEffect := by
  unfold Obligations.WarmResetTakesEffect
  intro s hs hw
  have heq := s.warmReset_eq
  have hlink (p : Port) : s.warmReset.link p = State.warmLink p (s.warmMode.entry p) (s.warmMode.link p) :=
    s.warmReset_link p
  have hinstalled (p : Port) : (s.warmMode.entry p).installed = (s.entry p).installed := by
    rw [State.warmMode_entry_eq]
  refine ⟨s.warmReset, hs.exec_warmResetEffect hw, ?_, fun p => ?_, ?_, ?_, ?_, fun p => ⟨?_, s.warmReset_retry p⟩,
    s.warmReset_cport, fun p => ?_, ?_, ?_, ?_, ?_, ?_, fun pre b r post hq hc hr hpre => ?_, fun h => ?_, fun x => ?_,
    fun h p => ⟨?_, ?_⟩, fun hl hm => ⟨fun x => ?_, fun p => ?_⟩⟩
  · have hbau : s.warmReset.bau = s.warmBypass s.bau := by rw [heq]
    have hcli : s.warmReset.cli = { State.warmControl s.settings.refHoldLimit s.cli with
        flags := withFlagIf s.cli.flags s.warmDrops .reqDropped } := by rw [heq]
    rw [hbau, hcli]
    exact heq
  · rw [State.warmReset_entry, State.warmMode_entry_eq]
    rfl
  · rw [heq]; rfl
  · rw [heq]; rfl
  · rw [heq]; rfl
  · rw [heq]
    exact Vector.getElem_replicate _
  · rw [hlink, State.warmMode_link]
    simp only [State.warmLink, hinstalled]
    rfl
  · rw [heq]; rfl
  · rw [heq]; rfl
  · rw [heq]; rfl
  · rw [heq]; rfl
  · rw [heq]; rfl
  · rw [State.warmReset_upstream, hq]
    refine State.sentThrough_split (fun y hy => ?_) (State.isWarmReply_iff.mpr ⟨hc, hr⟩)
    cases y with
    | digest d => rfl
    | reply b' r' => exact Bool.eq_false_iff.mpr (fun h => hpre b' r' hy (State.isWarmReply_iff.mp h))
  · rw [State.warmReset_upstream]
    refine State.sentThrough_of_none (fun y hy => ?_)
    cases y with
    | digest d => rfl
    | reply b' r' => exact Bool.eq_false_iff.mpr (fun hr => h b' r' hy (State.isWarmReply_iff.mp hr))
  · rw [heq, Bool.eq_iff_iff, hasFlag_withFlagIf]
    simp [State.warmDrops]
  · rw [State.warmReset_entry, State.warmMode_of_settled h]
    rfl
  · rw [hlink, State.warmMode_of_settled h]
    rfl
  · have hentry (p : Port) (_ : phaseOf p = x) : s.warmMode.entry p = s.renumbered p (s.entry p) := by
      rw [State.warmMode_entry, if_pos ⟨by simp [State.modeByLine, hl], hm⟩]
    have hwarm (p : Port) : s.warmReset.entry p = State.warmEntry (s.warmMode.entry p) := s.warmReset_entry p
    have hstring : s.warmReset.phaseString x = s.warmMode.phaseString x :=
      State.phaseString_congr (fun p _ => by rw [hwarm]; rfl) (fun p _ => by rw [hwarm]; rfl)
    have hkept : s.warmMode.phaseString x = s.phaseString x := State.phaseString_of_renumbered hentry
    refine ⟨hstring.trans hkept, ?_⟩
    have hnumbered : s.warmMode.Numbered x := State.numbered_of_renumbered hentry
    have hlast : s.warmReset.Numbered x :=
      hnumbered.congr (fun p _ => by rw [hwarm]; rfl) (fun p _ => by rw [hwarm]; rfl)
    rw [State.Numbered, State.stringLength] at hlast
    rw [hlast, hstring.trans hkept, State.stringLength]
  · have hwarm : s.warmMode.link p = s.urgentBlock.link p := by
      rw [State.warmMode_of_low hl hm]
      simp [State.link]
    rw [hlink, hwarm, State.urgentBlock_link]
    simp only [State.warmLink, Link.cut, Link.takeSent]
    split
    · rfl
    · rw [List.append_nil]

end Sys2Proof.Machine

/-! ### Latches in RUN (R10, R34 to R44) -/

namespace Sys2Proof.Machine

namespace State

variable {s t : State} {l : Latch} {p : Port}

theorem countLatch_eq (s : State) (l : Latch) (m : Mode) (st : Stage) (depth : Nat) :
    s.countLatch l m st depth = { s with
      roster := s.roster.set l.port.val
        { s.entry l.port with latchCount := saturate 255 (s.entry l.port).latchCount }
      cli := { s.cli with flags := withFlag (withFlag s.cli.flags .latchAccepted) .logWritten }
      log := { next := s.log.next + 1, records := keepSixteen (s.log.records ++
        [{ sequence := s.log.next, stamp := s.ctu.counter, port := some l.port, kind := l.kind, word := l.word
           mode := m, stage := st, restartNumber := s.rsq.restartNumber, nestDepth := depth
           deficits := none }]) } } := rfl

theorem countLatch_entry_self (s : State) (l : Latch) (m : Mode) (st : Stage) (depth : Nat) :
    (s.countLatch l m st depth).entry l.port =
      { s.entry l.port with latchCount := saturate 255 (s.entry l.port).latchCount } := by
  rw [countLatch, writeLog_entry, raise_entry, updEntry_entry, if_pos rfl]

theorem countLatch_entry_ne (s : State) (m : Mode) (st : Stage) (depth : Nat) {q : Port} (h : q ≠ l.port) :
    (s.countLatch l m st depth).entry q = s.entry q := by
  rw [countLatch, writeLog_entry, raise_entry, updEntry_entry, if_neg (fun he => h he.symm)]

theorem takeLatch_isolating (hm : s.mode = .run) (hr : (s.entry l.port).role = .isolating) : s.takeLatch l = s := by
  rw [takeLatch, if_pos hm, acceptLatch, if_pos hr]

/-- A latch in RUN that leads to no trip is dealt with and then counted. -/
theorem takeLatch_calm (hm : s.mode = .run) (hr : (s.entry l.port).role ≠ .isolating)
    (he : s.latchEffect l.port = (t, none)) :
    s.takeLatch l = t.countLatch l .run s.rsq.stage t.nestDepth := by
  rw [takeLatch, if_pos hm, acceptLatch, if_neg hr, he]

/-- A latch in RUN that trips the part is dealt with and counted before the trip is requested. -/
theorem takeLatch_trip {r : TripRequest} (hm : s.mode = .run) (hr : (s.entry l.port).role ≠ .isolating)
    (he : s.latchEffect l.port = (t, some r)) :
    s.takeLatch l = (t.countLatch l .run s.rsq.stage t.nestDepth).requestTrip r := by
  rw [takeLatch, if_pos hm, acceptLatch, if_neg hr, he]

theorem latchEffect_active (hr : (s.entry p).role = .active) (hd : (s.entry p).deferred = false) :
    s.latchEffect p = s.latchActive p := by
  simp [latchEffect, hr, hd]

theorem makeIsolating_eq (s : State) (p : Port) : s.makeIsolating p = { s with
    roster := s.roster.set p.val { s.entry p with role := .isolating, deferred := false }
    bau := { s.bau with blindStart := s.bau.blindStart.set p.val (some s.ctu.counter) } } := rfl

theorem makeIsolating_entry_self (s : State) (p : Port) :
    (s.makeIsolating p).entry p = { s.entry p with role := .isolating, deferred := false } := by
  rw [makeIsolating, updBau_entry, updEntry_entry, if_pos rfl]

theorem push_rsq (s : State) (st : Stage) (gap : Nat) (policy : Option PolicyEntry) :
    (s.push st gap policy).rsq = { s.rsq with
        stage := .inhibit, inhibitCount := 0, restartNumber := s.rsq.restartNumber + 1, gapCount := gap
        grantPending := false, resumeIndex := 0, rampGain := 1024
        nest := s.rsq.nest ++ [{ restartNumber := s.rsq.restartNumber + 1, interrupted := st, deficits := s.deficits
                                 motion := s.cli.motion, gapCount := gap, policy := policy }] } := rfl

/-- A push changes the sequencer, the window and the transmit lists, and notes the entry to INHIBIT. -/
theorem push_eq (s : State) (st : Stage) (gap : Nat) (policy : Option PolicyEntry) :
    s.push st gap policy = { s with
      rsq := (s.push st gap policy).rsq, links := (s.push st gap policy).links
      ctu := { s.ctu with windowStart := none }, ps := { s.ps with inhibitEntered := s.ps.underWay } } := rfl

theorem push_link (s : State) (st : Stage) (gap : Nat) (policy : Option PolicyEntry) (q : Port) :
    (s.push st gap policy).link q = s.urgentBlock.link q := by
  rw [push, enterInhibit, urgentBlock_link, urgentBlock_link]
  rfl

theorem deficits_congr (h : SamePlaces s t) (hn : t.settings = s.settings) : t.deficits = s.deficits := by
  have hd (x : Phase) : t.deficit x = s.deficit x := by rw [deficit, deficit, h.activeCount, hn]
  simp only [deficits, Tri.of, hd]

/-- The cell, the strings, the links and the log after a latch that pushes a context. -/
theorem pushed_fields (s : State) (l : Latch) (m : Mode) (st : Stage) (gap : Nat) (policy : Option PolicyEntry) (d : Nat)
    (hd : (s.entry l.port).deferred = false) :
    let t := ((s.makeIsolating l.port).push st gap policy).countLatch l m st d
    t.rsq = { s.rsq with
      stage := .inhibit, inhibitCount := 0, restartNumber := s.rsq.restartNumber + 1, gapCount := gap
      grantPending := false, resumeIndex := 0, rampGain := 1024
      nest := s.rsq.nest ++ [{ restartNumber := s.rsq.restartNumber + 1, interrupted := st, deficits := t.deficits
                               motion := s.cli.motion, gapCount := gap, policy := policy }] } ∧
    t.entry l.port = { s.entry l.port with
      role := .isolating, latchCount := saturate 255 (s.entry l.port).latchCount } ∧
    (∀ q, q ≠ l.port → t.entry q = s.entry q) ∧
    (∀ q, t.link q = s.urgentBlock.link q) ∧
    t.log = { next := s.log.next + 1, records := keepSixteen (s.log.records ++
      [{ sequence := s.log.next, stamp := s.ctu.counter, port := some l.port, kind := l.kind, word := l.word
         mode := m, stage := st, restartNumber := s.rsq.restartNumber + 1, nestDepth := d, deficits := none }]) } ∧
    t = { s with
      roster := t.roster, rsq := t.rsq, links := t.links, log := t.log, ps := t.ps
      bau := { s.bau with blindStart := s.bau.blindStart.set l.port.val (some s.ctu.counter) }
      ctu := { s.ctu with windowStart := none }
      cli := { s.cli with flags := withFlag (withFlag s.cli.flags .latchAccepted) .logWritten } } := by
  intro t
  have hroster : ((s.makeIsolating l.port).push st gap policy).roster = (s.makeIsolating l.port).roster := by simp
  have hentry (q : Port) : ((s.makeIsolating l.port).push st gap policy).entry q = (s.makeIsolating l.port).entry q := by
    simp only [entry, hroster]
  have hdeficits : t.deficits = (s.makeIsolating l.port).deficits :=
    deficits_congr ((samePlaces_of_roster hroster).trans (countLatch_samePlaces _ _ _ _ _)) (by simp [t])
  refine ⟨?_, ?_, fun q hq => ?_, fun q => ?_, ?_, ?_⟩
  · rw [hdeficits]
    exact push_rsq _ st gap policy
  · rw [countLatch_entry_self, hentry, makeIsolating_entry_self, ← hd]
  · rw [countLatch_entry_ne _ _ _ _ hq, hentry, makeIsolating_entry _ _ _ hq.symm]
  · have hlink : t.link q = ((s.makeIsolating l.port).push st gap policy).link q := rfl
    have horder : ((s.makeIsolating l.port).entry q).bypassOrder = (s.entry q).bypassOrder := by
      by_cases h : q = l.port
      · rw [h, makeIsolating_entry_self]
      · rw [makeIsolating_entry _ _ _ (Ne.symm h)]
    rw [hlink, push_link, urgentBlock_link, urgentBlock_link, urgentFrame, horder]
    rfl
  · rfl
  · simp only [t]
    rw [countLatch_eq, push_eq, makeIsolating_eq]

/-- The lists after an urgent BLOCK, with the frame written out. -/
theorem urgentBlock_link_listed (s : State) (q : Port) : s.urgentBlock.link q = { s.link q with transmit :=
    if (s.link q).state = .linking ∨ (s.link q).state = .up ∨ (s.link q).state = .missing then
      (s.link q).transmit ++ [{ urgent := true, port := q, tag := s.ctu.counter.setWidth 8, command := .block
                                order := (s.entry q).bypassOrder, pair := neutralPair s.ctu.pInForce, trim := 0
                                load := none }]
    else (s.link q).transmit } := by
  rw [urgentBlock_link]
  simp only [← sends_iff]
  rfl

theorem blindForbidden_eq_false {policy : PolicyEntry}
    (h : (s.link p).state ≠ .lost ∨ policy.blindAllowed = true) : s.blindForbidden p policy = false := by
  rcases h with h | h <;> simp [blindForbidden, h]

theorem blindForbidden_eq_true {policy : PolicyEntry} (hl : (s.link p).state = .lost)
    (hb : policy.blindAllowed = false) : s.blindForbidden p policy = true := by
  simp [blindForbidden, hl, hb]

theorem not_isolating_of_active (h : (s.entry p).role = .active) : (s.entry p).role ≠ .isolating := by simp [h]

theorem latchActive_opens (hn : s.rsq.nest = []) (hr : s.activePolicy.restartAllowed = true)
    (hb : (s.link p).state ≠ .lost ∨ s.activePolicy.blindAllowed = true) :
    s.latchActive p = ((s.makeIsolating p).push s.rsq.stage 0 (some s.activePolicy), none) := by
  rw [latchActive, if_pos hn, openEpisode, if_neg (by simp [hr]), if_neg (by simp [blindForbidden_eq_false hb])]

theorem latchActive_pushBack (hn : s.rsq.nest ≠ [])
    (hs : s.rsq.stage = .align ∨ s.rsq.stage = .awaitGrant ∨ s.rsq.stage = .resume) :
    s.latchActive p = s.pushBack p (if s.rsq.stage = .resume then 0 else s.rsq.gapCount) := by
  rw [latchActive, if_neg hn]
  rcases hs with hs | hs | hs <;> simp [hs]

theorem pushBack_pushes {gap : Nat} (hn : s.nestDepth < s.governingPolicy.maxNest)
    (hb : (s.link p).state ≠ .lost ∨ s.governingPolicy.blindAllowed = true) :
    s.pushBack p gap = ((s.makeIsolating p).push s.rsq.stage gap none, none) := by
  rw [pushBack, if_neg (by simp [blindForbidden_eq_false hb]), if_neg (by omega)]

theorem governingPolicy_of_episode {policy : PolicyEntry} (h : s.episodePolicy = some policy) :
    s.governingPolicy = policy := by
  simp [governingPolicy, h]

theorem episodePolicy_append {t : State} {c : Context} (hn : s.rsq.nest ≠ []) (ht : t.rsq.nest = s.rsq.nest ++ [c]) :
    t.episodePolicy = s.episodePolicy := by
  obtain ⟨bottom, rest, hs⟩ := List.exists_cons_of_ne_nil hn
  simp [episodePolicy, ht, hs]

end State

/-- Settles O32: the push of the first context. -/
theorem latchOpensEpisode : Obligations.LatchOpensEpisode := by
  unfold Obligations.LatchOpensEpisode
  intro s l hm hr hd hn hallowed hb
  have he : s.latchEffect l.port =
      ((s.makeIsolating l.port).push s.rsq.stage 0 (some s.activePolicy), none) := by
    rw [State.latchEffect_active hr hd, State.latchActive_opens hn hallowed hb]
  have hdepth : ((s.makeIsolating l.port).push s.rsq.stage 0 (some s.activePolicy)).nestDepth = 1 := by
    rw [State.nestDepth, State.push_rsq]
    simp [hn]
  obtain ⟨hrsq, hentry, hother, hlinks, hlog, hrest⟩ := s.pushed_fields l .run s.rsq.stage 0 (some s.activePolicy) 1 hd
  intro t
  have ht : t = ((s.makeIsolating l.port).push s.rsq.stage 0 (some s.activePolicy)).countLatch l .run s.rsq.stage 1 := by
    simp only [t]
    rw [State.takeLatch_calm hm (State.not_isolating_of_active hr) he, hdepth]
  clear_value t
  subst ht
  refine ⟨?_, hentry, hother, fun q => (hlinks q).trans (s.urgentBlock_link_listed q), hlog, hrest⟩
  rw [hrsq, hn]
  rfl

/-- Settles O33: the push of a further context, with the bottom one kept. -/
theorem latchPushesContext : Obligations.LatchPushesContext := by
  unfold Obligations.LatchPushesContext
  intro s l policy hm hr hd hn hpolicy hstage hdepth hb
  have hgoverning := State.governingPolicy_of_episode hpolicy
  let gap := if s.rsq.stage = .resume then 0 else s.rsq.gapCount
  have he : s.latchEffect l.port = ((s.makeIsolating l.port).push s.rsq.stage gap none, none) := by
    rw [State.latchEffect_active hr hd, State.latchActive_pushBack hn hstage,
      State.pushBack_pushes (by rw [hgoverning]; exact hdepth) (by rw [hgoverning]; exact hb)]
  have hpushed : ((s.makeIsolating l.port).push s.rsq.stage gap none).nestDepth = s.rsq.nest.length + 1 := by
    rw [State.nestDepth, State.push_rsq]
    simp
  obtain ⟨hrsq, hentry, hother, hlinks, hlog, hrest⟩ :=
    s.pushed_fields l .run s.rsq.stage gap none (s.rsq.nest.length + 1) hd
  intro t
  have ht : t = ((s.makeIsolating l.port).push s.rsq.stage gap none).countLatch l .run s.rsq.stage
      (s.rsq.nest.length + 1) := by
    simp only [t]
    rw [State.takeLatch_calm hm (State.not_isolating_of_active hr) he, hpushed]
  clear_value t
  subst ht
  have hmode := congrArg State.mode hrest
  refine ⟨hmode.trans hm, hrsq, hentry, hother, fun q => (hlinks q).trans (s.urgentBlock_link_listed q), hlog, hrest,
    (State.episodePolicy_append hn (congrArg Sequencer.nest hrsq)).trans hpolicy, ?_⟩
  have hlines := congrArg State.lines hrest
  have hnest : _ ≠ [] := (congrArg Sequencer.nest hrsq).trans_ne (by simp)
  rw [Bool.eq_iff_iff, State.torqueGap_iff, hlines]
  exact ⟨fun h => h.2.2.1, fun h => ⟨hmode.trans hm, hnest, h, Or.inl (congrArg Sequencer.stage hrsq)⟩⟩

end Sys2Proof.Machine

/-! ### Spare selection (R14, R15) -/

namespace Sys2Proof.Machine

namespace State

variable {s t u : State} {p q : Port}

theorem eligible_iff : s.eligible q = true ↔ (s.entry q).role = .spare ∧ (s.link q).state = .up ∧
    (s.entry q).ineligible = false ∧ (s.entry q).insertionTarget = none ∧ s.settings.spareVdcMin ≤ (s.entry q).vdc := by
  simp [eligible, and_assoc]

theorem insertionTarget_of_eligible (h : s.eligible q = true) : (s.entry q).insertionTarget = none := by
  obtain ⟨-, -, -, ht, -⟩ := eligible_iff.mp h
  exact ht

/-- A state that spare selection has led to: nothing has changed but targets, and no target given has. -/
structure Selecting (s u : State) : Prop where
  rest : u = { s with roster := u.roster }
  entries : ∀ q, u.entry q = { s.entry q with insertionTarget := (u.entry q).insertionTarget }
  kept : ∀ q, (s.entry q).insertionTarget ≠ none → (u.entry q).insertionTarget = (s.entry q).insertionTarget

theorem Selecting.refl (s : State) : Selecting s s := ⟨rfl, fun _ => rfl, fun _ _ => rfl⟩

theorem Selecting.trans (h : Selecting s t) (h' : Selecting t u) : Selecting s u where
  rest := by
    have hu := h'.rest
    rw [h.rest] at hu
    exact hu
  entries q := by
    have hu := h'.entries q
    rw [h.entries q] at hu
    exact hu
  kept q hq := by
    have ht := h.kept q hq
    rw [h'.kept q (ht ▸ hq), ht]

theorem Selecting.eligible_iff (h : Selecting s u) :
    u.eligible q = true ↔ s.eligible q = true ∧ (u.entry q).insertionTarget = none := by
  have hlink : u.link q = s.link q := by rw [h.rest]; rfl
  have hsettings : u.settings = s.settings := by rw [h.rest]
  rw [State.eligible_iff, State.eligible_iff, hlink, hsettings]
  have hentry := h.entries q
  have hkept := h.kept q
  constructor
  · rintro ⟨hr, hl, hi, ht, hv⟩
    rw [hentry] at hr hi hv
    refine ⟨⟨hr, hl, hi, ?_, hv⟩, ht⟩
    by_contra hne
    exact hne (hkept hne ▸ ht)
  · rintro ⟨⟨hr, hl, hi, -, hv⟩, ht⟩
    rw [hentry]
    exact ⟨hr, hl, hi, ht, hv⟩

/-- The key by which spares are taken: rank, then port. -/
def spareKey (s : State) (q : Port) : Nat := 24 * (s.entry q).rank + q.val

theorem spareKey_inj (h : s.spareKey p = s.spareKey q) : p = q := by
  simp only [spareKey] at h
  exact Fin.ext (by omega)

theorem spareKey_lt_iff : s.spareKey p < s.spareKey q ↔
    (s.entry p).rank < (s.entry q).rank ∨ ((s.entry p).rank = (s.entry q).rank ∧ p < q) := by
  simp only [spareKey, Fin.lt_def]
  omega

theorem Selecting.spareKey_eq (h : Selecting s u) (q : Port) : u.spareKey q = s.spareKey q := by
  rw [spareKey, spareKey, h.entries q]

theorem bestSpare?_eq (s : State) (p : Port) :
    s.bestSpare? p = (sortPorts s.spareKey ((phasePorts (phaseOf p)).filter s.eligible)).head? := rfl

/-- The spare chosen is an eligible one of the phase, and none eligible of the phase comes before it. -/
theorem bestSpare?_spec (s : State) (p : Port) :
    (s.bestSpare? p = none ∧ ∀ q, phaseOf q = phaseOf p → s.eligible q = false) ∨
      ∃ r, s.bestSpare? p = some r ∧ phaseOf r = phaseOf p ∧ s.eligible r = true ∧
        ∀ q, phaseOf q = phaseOf p → s.eligible q = true → s.spareKey r ≤ s.spareKey q := by
  have hmem (q : Port) : q ∈ sortPorts s.spareKey ((phasePorts (phaseOf p)).filter s.eligible) ↔
      phaseOf q = phaseOf p ∧ s.eligible q = true := by
    rw [(sortPorts_perm _ _).mem_iff, List.mem_filter, mem_phasePorts]
  have hsorted := sortPorts_pairwise s.spareKey ((phasePorts (phaseOf p)).filter s.eligible)
  rw [bestSpare?_eq]
  cases hl : sortPorts s.spareKey ((phasePorts (phaseOf p)).filter s.eligible) with
  | nil =>
    refine Or.inl ⟨rfl, fun q hq => Bool.eq_false_iff.mpr (fun he => ?_)⟩
    have := (hmem q).mpr ⟨hq, he⟩
    simp [hl] at this
  | cons r rest =>
    obtain ⟨hr, he⟩ := (hmem r).mp (by simp [hl])
    refine Or.inr ⟨r, rfl, hr, he, fun q hq hqe => ?_⟩
    have hq := (hmem q).mpr ⟨hq, hqe⟩
    rw [hl] at hq hsorted
    rcases List.mem_cons.mp hq with rfl | hq
    · exact Nat.le_refl _
    · exact (List.pairwise_cons.mp hsorted).1 q hq

theorem assignSpare_none (h : s.bestSpare? p = none) : s.assignSpare p = s := by rw [assignSpare, h]

theorem assignSpare_some {r : Port} (h : s.bestSpare? p = some r) :
    s.assignSpare p = s.updEntry r (fun e => { e with insertionTarget := some p }) := by rw [assignSpare, h]

/-- One cell served: its spare's target, and nothing else. -/
theorem assignSpare_selecting (s : State) (p : Port) : Selecting s (s.assignSpare p) ∧
    ∀ q, ((s.assignSpare p).entry q).insertionTarget = (s.entry q).insertionTarget ∨
      (s.bestSpare? p = some q ∧ s.eligible q = true ∧ phaseOf p = phaseOf q ∧
        ((s.assignSpare p).entry q).insertionTarget = some p) := by
  rcases s.bestSpare?_spec p with ⟨hnone, -⟩ | ⟨r, hr, hphase, he, -⟩
  · rw [assignSpare_none hnone]
    exact ⟨Selecting.refl s, fun q => Or.inl rfl⟩
  · have hfree : (s.entry r).insertionTarget = none := insertionTarget_of_eligible he
    rw [assignSpare_some hr]
    refine ⟨⟨rfl, fun q => ?_, fun q hq => ?_⟩, fun q => ?_⟩
    · rw [updEntry_entry]
      split
      · subst q; rfl
      · rfl
    · have hrq : r ≠ q := fun hrq => hq (hrq ▸ hfree)
      rw [updEntry_entry, if_neg hrq]
    · rw [updEntry_entry]
      split
      · subst q
        exact Or.inr ⟨hr, he, hphase.symm, rfl⟩
      · exact Or.inl rfl

/-- Cells served one after another: a target that has changed was none before, and names one of them. -/
theorem foldl_assignSpare (l : List Port) (s : State) : Selecting s (l.foldl assignSpare s) ∧
    ∀ q, ((l.foldl assignSpare s).entry q).insertionTarget = (s.entry q).insertionTarget ∨
      (s.eligible q = true ∧ ∃ p ∈ l, phaseOf p = phaseOf q ∧
        ((l.foldl assignSpare s).entry q).insertionTarget = some p) := by
  induction l generalizing s with
  | nil => exact ⟨Selecting.refl s, fun q => Or.inl rfl⟩
  | cons p l ih =>
    obtain ⟨hone, htarget⟩ := s.assignSpare_selecting p
    obtain ⟨hrest, hothers⟩ := ih (s.assignSpare p)
    refine ⟨hone.trans hrest, fun q => ?_⟩
    rw [List.foldl_cons]
    rcases hothers q with h | ⟨he, p', hp', hphase, h⟩
    · rcases htarget q with h1 | ⟨-, he, hphase, h1⟩
      · exact Or.inl (h.trans h1)
      · exact Or.inr ⟨he, p, List.mem_cons_self, hphase, h.trans h1⟩
    · exact Or.inr ⟨(hone.eligible_iff.mp he).1, p', List.mem_cons_of_mem _ hp', hphase, h⟩

theorem foldl_selecting (l : List Port) (s : State) : Selecting s (l.foldl assignSpare s) := (foldl_assignSpare l s).1

/-- A cell served while a spare of its phase is eligible gets one that comes first, and keeps it. -/
theorem served_of_eligible {l : List Port} (hq : phaseOf q = phaseOf p) (he : s.eligible q = true) :
    ∃ r, s.eligible r = true ∧ s.spareKey r ≤ s.spareKey q ∧
      ((s.assignSpare p).entry r).insertionTarget = some p ∧
      ((l.foldl assignSpare (s.assignSpare p)).entry r).insertionTarget = some p := by
  rcases s.bestSpare?_spec p with ⟨-, hnone⟩ | ⟨r, hr, -, hre, hmin⟩
  · simp [hnone q hq] at he
  · have hgiven : ((s.assignSpare p).entry r).insertionTarget = some p := by
      rw [assignSpare_some hr, updEntry_entry, if_pos rfl]
    refine ⟨r, hre, hmin q hq he, hgiven, ?_⟩
    rw [(foldl_selecting l _).kept r (by simp [hgiven]), hgiven]

/-- The cells to be served, in their order. -/
def servedCells (s : State) : List Port := Phase.list.flatMap s.unserved

theorem mem_unserved {x : Phase} : p ∈ s.unserved x ↔ phaseOf p = x ∧ (s.entry p).role = .isolating ∧
    ∀ q, (s.entry q).role = .spare → (s.entry q).insertionTarget ≠ some p := by
  rw [unserved, List.mem_filter, mem_phaseString]
  simp only [decide_eq_true_eq, spareFor?, Option.isNone_iff_eq_none, List.find?_eq_none, mem_allPorts, forall_const,
    not_and]
  constructor
  · rintro ⟨⟨hx, -⟩, hr, hn⟩
    exact ⟨hx, hr, hn⟩
  · rintro ⟨hx, hr, hn⟩
    exact ⟨⟨hx, by simp [RosterEntry.inString, hr]⟩, hr, hn⟩

theorem mem_servedCells : p ∈ s.servedCells ↔ (s.entry p).role = .isolating ∧
    ∀ q, (s.entry q).role = .spare → (s.entry q).insertionTarget ≠ some p := by
  simp only [servedCells, List.mem_flatMap, mem_unserved]
  constructor
  · rintro ⟨x, -, -, h⟩
    exact h
  · intro h
    exact ⟨phaseOf p, by cases phaseOf p <;> simp [Phase.list], rfl, h⟩

/-- The cells are served once each, those of one string in its order. -/
theorem servedCells_pairwise (s : State) :
    s.servedCells.Pairwise (fun p q => p ≠ q ∧ (phaseOf p = phaseOf q → s.stringKey p < s.stringKey q)) := by
  have hstring (x : Phase) :
      (s.unserved x).Pairwise (fun p q => p ≠ q ∧ (phaseOf p = phaseOf q → s.stringKey p < s.stringKey q)) :=
    ((s.phaseString_pairwise x).filter _).imp (fun h => ⟨fun he => Nat.lt_irrefl _ (he ▸ h), fun _ => h⟩)
  have hcross (x y : Phase) (hxy : x ≠ y) : ∀ p ∈ s.unserved x, ∀ q ∈ s.unserved y,
      p ≠ q ∧ (phaseOf p = phaseOf q → s.stringKey p < s.stringKey q) := by
    intro p hp q hq
    have hne : phaseOf p ≠ phaseOf q := by rw [(mem_unserved.mp hp).1, (mem_unserved.mp hq).1]; exact hxy
    exact ⟨fun he => hne (he ▸ rfl), fun h => absurd h hne⟩
  rw [servedCells, List.pairwise_flatMap]
  refine ⟨fun x _ => hstring x, ?_⟩
  have hlist : Phase.list.Pairwise (fun x y => x ≠ y) := by decide
  exact hlist.imp (fun {x y} hxy => hcross x y hxy)

theorem servedCells_nodup (s : State) : s.servedCells.Nodup := s.servedCells_pairwise.imp (fun h => h.1)

theorem spareAllowed_iff : s.spareAllowed = true ↔ s.mode = .run ∧ ∃ e, s.episodePolicy = some e ∧ e.spareAllowed = true := by
  simp [spareAllowed, Option.any_eq_true]

theorem selectSpares_of_allowed (h : s.spareAllowed = true) : s.selectSpares = s.servedCells.foldl assignSpare s :=
  if_pos h

theorem selectSpares_of_not_allowed (h : s.spareAllowed ≠ true) : s.selectSpares = s := if_neg h

theorem selectSpares_selecting (s : State) : Selecting s s.selectSpares ∧
    ∀ q, (s.selectSpares.entry q).insertionTarget = (s.entry q).insertionTarget ∨
      (s.eligible q = true ∧ ∃ p ∈ s.servedCells, phaseOf p = phaseOf q ∧
        (s.selectSpares.entry q).insertionTarget = some p) := by
  by_cases h : s.spareAllowed = true
  · rw [selectSpares_of_allowed h]
    exact foldl_assignSpare _ s
  · rw [selectSpares_of_not_allowed h]
    exact ⟨Selecting.refl s, fun q => Or.inl rfl⟩

/-- A spare that names a cell at the end was given it when that cell was served. -/
theorem given_at {l₁ l₂ : List Port} (hnodup : (l₁ ++ p :: l₂).Nodup) (he : s.eligible q = true)
    (ht : (((l₁ ++ p :: l₂).foldl assignSpare s).entry q).insertionTarget = some p) :
    ((l₁.foldl assignSpare s).entry q).insertionTarget = none ∧
      (l₁.foldl assignSpare s).bestSpare? p = some q := by
  obtain ⟨-, hp, hdisjoint⟩ := List.nodup_append.mp hnodup
  have hfree : (s.entry q).insertionTarget = none := insertionTarget_of_eligible he
  rw [List.foldl_append, List.foldl_cons] at ht
  have hafter := (foldl_assignSpare l₂ ((l₁.foldl assignSpare s).assignSpare p)).2 q
  have hone := (l₁.foldl assignSpare s).assignSpare_selecting p
  have hnone : ((l₁.foldl assignSpare s).entry q).insertionTarget = none := by
    rcases (foldl_assignSpare l₁ s).2 q with h | ⟨-, p', hp', -, h⟩
    · rw [h, hfree]
    · have hlater := (hone.1.trans (foldl_selecting l₂ _)).kept q (by simp [h])
      rw [ht, h] at hlater
      exact absurd (Option.some.inj hlater).symm (hdisjoint p' hp' p List.mem_cons_self)
  refine ⟨hnone, ?_⟩
  rcases hafter with h | ⟨-, p', hp', -, h⟩
  · rcases hone.2 q with h' | ⟨hbest, -⟩
    · rw [ht, h', hnone] at h
      cases h
    · exact hbest
  · rw [ht] at h
    exact absurd ((Option.some.inj h).symm ▸ hp') (List.nodup_cons.mp hp).1

end State

/-- Settles O37: the cells are served one after another, and what one has been given no later one takes. -/
theorem sparesSelected : Obligations.SparesSelected := by
  unfold Obligations.SparesSelected
  intro s t allowed eligible unserved named better sooner
  have hallowed : s.spareAllowed = true ↔ allowed := State.spareAllowed_iff
  have heligible (u : State) (q : Port) : u.eligible q = true ↔ eligible u q := State.eligible_iff
  have hserved (p : Port) : p ∈ s.servedCells ↔ unserved p := State.mem_servedCells
  have hbetter (q q' : Port) (h : s.spareKey q ≤ s.spareKey q') (hne : q ≠ q') : better q q' :=
    State.spareKey_lt_iff.mp (lt_of_le_of_ne h (fun he => hne (State.spareKey_inj he)))
  obtain ⟨hsel, htargets⟩ := s.selectSpares_selecting
  have hgained (q p : Port) (h : named q p) : p ∈ s.servedCells ∧ phaseOf p = phaseOf q := by
    rcases htargets q with hsame | ⟨-, p', hp', hphase, ht⟩
    · rw [h.2, State.insertionTarget_of_eligible ((heligible s q).mpr h.1)] at hsame
      cases hsame
    · obtain rfl : p = p' := Option.some.inj (h.2.symm.trans ht)
      exact ⟨hp', hphase⟩
  have hsplit (l₁ l₂ : List Port) (p : Port) (ha : allowed) (hl : s.servedCells = l₁ ++ p :: l₂) :
      t = l₂.foldl State.assignSpare ((l₁.foldl State.assignSpare s).assignSpare p) := by
    simp only [t]
    rw [State.selectSpares_of_allowed (hallowed.mpr ha), hl, List.foldl_append, List.foldl_cons]
  have hgiven (l₁ l₂ : List Port) (p q : Port) (hl : s.servedCells = l₁ ++ p :: l₂) (h : named q p) :
      ((l₁.foldl State.assignSpare s).entry q).insertionTarget = none ∧
        (l₁.foldl State.assignSpare s).bestSpare? p = some q := by
    refine State.given_at (l₂ := l₂) (hl ▸ s.servedCells_nodup) ((heligible s q).mpr h.1) ?_
    have ha : s.spareAllowed = true := by
      by_contra hn
      have ht := h.2
      simp only [t] at ht
      rw [State.selectSpares_of_not_allowed hn, State.insertionTarget_of_eligible ((heligible s q).mpr h.1)] at ht
      cases ht
    rw [← hl, ← State.selectSpares_of_allowed ha]
    exact h.2
  have hbest (l₁ l₂ : List Port) (p q : Port) (ha : allowed) (hl : s.servedCells = l₁ ++ p :: l₂)
      (hq : phaseOf q = phaseOf p) (he : (l₁.foldl State.assignSpare s).eligible q = true)
      (hfree : (((l₁.foldl State.assignSpare s).assignSpare p).entry q).insertionTarget ≠ some p) :
      ∃ r, named r p ∧ better r q := by
    have hbefore := State.foldl_selecting l₁ s
    obtain ⟨r, hre, hkey, hr, hrt⟩ := State.served_of_eligible (l := l₂) hq he
    rw [← hsplit l₁ l₂ p ha hl] at hrt
    rw [hbefore.spareKey_eq, hbefore.spareKey_eq] at hkey
    exact ⟨r, ⟨(heligible s r).mp (hbefore.eligible_iff.mp hre).1, hrt⟩, hbetter r q hkey (fun h => hfree (h ▸ hr))⟩
  refine ⟨fun ha => State.selectSpares_of_not_allowed (fun h => ha (hallowed.mp h)), hsel.rest, hsel.entries,
    fun q => ?_, fun q q' p h h' => ?_, fun ha p q hp hq he => ?_, fun ha p p' q' hp hphase hsooner hnamed => ?_⟩
  · rcases htargets q with h | ⟨he, p, hp, hphase, h⟩
    · exact Or.inl h
    · exact Or.inr ⟨(heligible s q).mp he, p, hphase, (hserved p).mp hp, h⟩
  · obtain ⟨l₁, l₂, hl⟩ := List.append_of_mem (hgained q p h).1
    exact Option.some.inj ((hgiven l₁ l₂ p q hl h).2.symm.trans (hgiven l₁ l₂ p q' hl h').2)
  · obtain ⟨l₁, l₂, hl⟩ := List.append_of_mem ((hserved p).mpr hp)
    have hone := ((l₁.foldl State.assignSpare s).assignSpare_selecting p).1
    have hafter := State.foldl_selecting l₂ ((l₁.foldl State.assignSpare s).assignSpare p)
    rw [← hsplit l₁ l₂ p ha hl] at hafter
    have hstill := hafter.eligible_iff.mp ((heligible t q).mpr he)
    refine hbest l₁ l₂ p q ha hl hq (hone.eligible_iff.mp hstill.1).1 (fun ht => ?_)
    rw [State.insertionTarget_of_eligible hstill.1] at ht
    cases ht
  · obtain ⟨hp', hphase'⟩ := hgained q' p' hnamed
    obtain ⟨k, k', hk, hk', hlt⟩ := hsooner
    have hkey : s.stringKey p < s.stringKey p' := by
      rw [State.stringKey, State.stringKey, hk, hk']
      simp only [Option.getD_some, Fin.lt_def] at hlt ⊢
      omega
    have hne : p ≠ p' := fun h => Nat.lt_irrefl _ (h ▸ hkey)
    obtain ⟨l, l₃, hl⟩ := List.append_of_mem hp'
    have hmem : p ∈ l := by
      have hin : p ∈ l ++ p' :: l₃ := hl ▸ (hserved p).mpr hp
      rcases List.mem_append.mp hin with h | h
      · exact h
      · rcases List.mem_cons.mp h with h | h
        · exact absurd h hne
        · have hpair := s.servedCells_pairwise
          rw [hl] at hpair
          have := ((List.pairwise_cons.mp (List.pairwise_append.mp hpair).2.1).1 p h).2 hphase
          omega
    obtain ⟨l₁, l₂, rfl⟩ := List.append_of_mem hmem
    have hfree := (hgiven _ l₃ p' q' hl hnamed).1
    have hbefore := State.foldl_selecting l₁ s
    have hone := ((l₁.foldl State.assignSpare s).assignSpare_selecting p).1
    have hrest := State.foldl_selecting l₂ ((l₁.foldl State.assignSpare s).assignSpare p)
    rw [List.foldl_append, List.foldl_cons] at hfree
    have hopen : (((l₁.foldl State.assignSpare s).assignSpare p).entry q').insertionTarget = none := by
      by_contra hgone
      exact hgone (hrest.kept q' hgone ▸ hfree)
    have hopen' : ((l₁.foldl State.assignSpare s).entry q').insertionTarget = none := by
      by_contra hgone
      exact hgone (hone.kept q' hgone ▸ hopen)
    refine hbest l₁ (l₂ ++ p' :: l₃) p q' ha (by rw [hl, List.append_assoc, List.cons_append])
      (hphase'.symm.trans hphase) (hbefore.eligible_iff.mpr ⟨(heligible s q').mpr hnamed.1, hopen'⟩) (by simp [hopen])

end Sys2Proof.Machine

/-! ### Latches that trip the part, and latches that push nothing (R36, R38, R39, R42 to R44) -/

namespace Sys2Proof.Machine

namespace State

variable {s t : State} {l : Latch} {p : Port}

theorem latchActive_forbidden (hn : s.rsq.nest = []) (hr : s.activePolicy.restartAllowed = false) :
    s.latchActive p = (s.makeIsolating p, some { cause := .restartForbidden, port := some p }) := by
  rw [latchActive, if_pos hn, openEpisode, if_pos (by simp [hr])]

theorem latchActive_openLost (hn : s.rsq.nest = []) (hr : s.activePolicy.restartAllowed = true)
    (hl : (s.link p).state = .lost) (hb : s.activePolicy.blindAllowed = false) :
    s.latchActive p = (s.makeIsolating p, some { cause := .linkLostNoBlind, port := some p }) := by
  rw [latchActive, if_pos hn, openEpisode, if_neg (by simp [hr]), if_pos (blindForbidden_eq_true hl hb)]

theorem latchActive_lost (hn : s.rsq.nest ≠ []) (hs : s.rsq.stage ≠ .remap)
    (hl : (s.link p).state = .lost) (hb : s.governingPolicy.blindAllowed = false) :
    s.latchActive p = (s.makeIsolating p, some { cause := .linkLostNoBlind, port := some p }) := by
  have hforbidden := blindForbidden_eq_true hl hb
  rw [latchActive, if_neg hn]
  cases h : s.rsq.stage <;> simp [joinRecovery, pushBack, hforbidden]
  exact absurd h hs

theorem latchActive_nestLimit (hn : s.rsq.nest ≠ [])
    (hs : s.rsq.stage = .align ∨ s.rsq.stage = .awaitGrant ∨ s.rsq.stage = .resume)
    (hb : (s.link p).state ≠ .lost ∨ s.governingPolicy.blindAllowed = true)
    (hd : s.governingPolicy.maxNest ≤ s.rsq.nest.length) :
    s.latchActive p = (s.makeIsolating p, some { cause := .nestLimit, port := some p }) := by
  rw [latchActive_pushBack hn hs, pushBack, if_neg (by simp [blindForbidden_eq_false hb]),
    if_pos (by rw [nestDepth]; omega)]

/-- A cell that has become ISOLATING, counted and logged. -/
theorem isolated_counted_eq (s : State) (l : Latch) (m : Mode) (st : Stage) (d : Nat) :
    (s.makeIsolating l.port).countLatch l m st d = { s with
      roster := s.roster.set l.port.val
        { s.entry l.port with
          role := .isolating, deferred := false, latchCount := saturate 255 (s.entry l.port).latchCount }
      bau := { s.bau with blindStart := s.bau.blindStart.set l.port.val (some s.ctu.counter) }
      cli := { s.cli with flags := withFlag (withFlag s.cli.flags .latchAccepted) .logWritten }
      log := { next := s.log.next + 1, records := keepSixteen (s.log.records ++
        [{ sequence := s.log.next, stamp := s.ctu.counter, port := some l.port, kind := l.kind, word := l.word
           mode := m, stage := st, restartNumber := s.rsq.restartNumber, nestDepth := d
           deficits := none }]) } } := by
  rw [countLatch_eq, makeIsolating_entry_self, makeIsolating_eq, Vector.set_set]

theorem closureOk_congr (he : ((t.entry p).bypassOrder, (t.entry p).contact, (t.entry p).blind) =
    ((s.entry p).bypassOrder, (s.entry p).contact, (s.entry p).blind)) (hq : t.bau.queue = s.bau.queue) :
    t.closureOk p = s.closureOk p := by
  simp only [Prod.mk.injEq] at he
  obtain ⟨horder, hcontact, hblind⟩ := he
  rw [closureOk, closureOk, closureConfirmed, closureConfirmed, queued, queued, horder, hcontact, hblind, hq]

/-- A trip requested with a cell ISOLATING takes it out of its string, by its closure. -/
theorem requestTrip_isolating (hm : s.mode = .run) (r : TripRequest) (hr : (s.entry p).role = .isolating) :
    ((s.requestTrip r).entry p).role = (if s.closureOk p then .bypassed else .failed) ∧
      ((s.requestTrip r).entry p).position = none := by
  have hclosure : (s.writeLog (s.tripEntry r)).closureOk p = s.closureOk p := closureOk_congr rfl rfl
  have hcompacted : (s.writeLog (s.tripEntry r)).compactedEntry p (s.entry p) =
      { s.entry p with role := if s.closureOk p then .bypassed else .failed, position := none } := by
    rw [compactedEntry, hr, hclosure]
  rw [requestTrip_of_run hm, departRun_entry, writeLog_entry, hcompacted, renumbered_of_not_inString]
  · exact ⟨rfl, rfl⟩
  · split <;> rfl

end State

/-- Settles O35: the latch is counted on the ISOLATING cell, and the trip is that of the state with its record. -/
theorem latchTripsPart : Obligations.LatchTripsPart := by
  unfold Obligations.LatchTripsPart
  intro s l hm hr hd cause hcause
  have he : s.latchEffect l.port = (s.makeIsolating l.port, some { cause := cause, port := some l.port }) := by
    rw [State.latchEffect_active hr hd]
    rcases hcause with ⟨hn, ha, rfl⟩ | ⟨hn, ha, hl, hb, rfl⟩ | ⟨hn, hs, hl, hb, rfl⟩ | ⟨hn, hs, hb, hdepth, rfl⟩
    · exact State.latchActive_forbidden hn ha
    · exact State.latchActive_openLost hn ha hl hb
    · exact State.latchActive_lost hn hs hl hb
    · exact State.latchActive_nestLimit hn hs hb hdepth
  intro t e u
  have hu : (s.makeIsolating l.port).countLatch l .run s.rsq.stage s.rsq.nest.length = u :=
    s.isolated_counted_eq l .run s.rsq.stage s.rsq.nest.length
  have ht : t = u.requestTrip { cause := cause, port := some l.port } := by
    rw [← hu]
    exact State.takeLatch_trip hm (State.not_isolating_of_active hr) he
  have hentry : u.entry l.port = { e with
      role := .isolating, deferred := false, latchCount := saturate 255 e.latchCount } := by
    simp [u, State.entry]
  have hum : u.mode = .run := hm
  have hdeparts : t = (u.writeLog (u.tripEntry { cause := cause, port := some l.port })).departRun .tripped :=
    ht.trans (State.requestTrip_of_run hum _)
  have hclosure : u.closureOk l.port = s.closureOk l.port := State.closureOk_congr (by rw [hentry]) rfl
  obtain ⟨hrole, hposition⟩ := State.requestTrip_isolating hum { cause := cause, port := some l.port }
    (p := l.port) (by rw [hentry])
  have hlog := State.requestTrip_log hum { cause := cause, port := some l.port }
  rw [← ht] at hrole hposition hlog
  clear_value t
  have hrsq : t.rsq = { s.rsq with stage := .normal, nest := [], grantPending := false, resumeIndex := 0
                                   inhibitCount := 0, rampGain := 1024 } := by
    rw [hdeparts, State.departRun_eq]
    rfl
  refine ⟨ht, ?_, by rw [hdeparts, State.departRun_mode], by rw [hrsq], by rw [hrsq], by rw [hrsq], by rw [hrsq],
    by rw [hrole, hclosure], hposition, ?_⟩
  · obtain ⟨role, place, target, mark, hfields⟩ := State.departRun_entry_fields
      (u.writeLog (u.tripEntry { cause := cause, port := some l.port })) .tripped l.port
    rw [← hdeparts, State.writeLog_entry, hentry] at hfields
    rw [hfields]
  · rw [hlog]
    simp [u, State.recordOf, State.tripEntry, State.entryNow, State.nestDepth, hm, BitVec.add_assoc]

namespace State

variable {s t : State} {l : Latch} {p q : Port}

/-- Spare selection leaves every cell that is no spare as it is. -/
theorem selectSpares_entry (h : (s.entry q).role ≠ .spare) : s.selectSpares.entry q = s.entry q := by
  obtain ⟨hsel, htarget⟩ := s.selectSpares_selecting
  rw [hsel.entries q]
  rcases htarget q with ht | ⟨he, -⟩
  · rw [ht]
  · exact absurd (eligible_iff.mp he).1 h

theorem foldl_assignSpare_blocks (ports : List Port) (s : State) (r : Sequencer) (b : Bypass) (x : PeriodProgress) :
    ports.foldl assignSpare { s with rsq := r, bau := b, ps := x } =
      { ports.foldl assignSpare s with rsq := r, bau := b, ps := x } := by
  induction ports generalizing s with
  | nil => rfl
  | cons p ports ih =>
    have hone : ({ s with rsq := r, bau := b, ps := x } : State).assignSpare p =
        { s.assignSpare p with rsq := r, bau := b, ps := x } := by
      have hbest : ({ s with rsq := r, bau := b, ps := x } : State).bestSpare? p = s.bestSpare? p := rfl
      rw [assignSpare, assignSpare, hbest]
      split <;> rfl
    rw [List.foldl_cons, List.foldl_cons, hone, ih]

/-- Spare selection reads of the sequencer no more than the nest list, and neither the Bypass Actuation Unit nor the
period start under way. -/
theorem selectSpares_blocks (s : State) {r : Sequencer} (hr : r.nest = s.rsq.nest) (b : Bypass) (x : PeriodProgress) :
    ({ s with rsq := r, bau := b, ps := x } : State).selectSpares =
      { s.selectSpares with rsq := r, bau := b, ps := x } := by
  have hallowed : ({ s with rsq := r, bau := b, ps := x } : State).spareAllowed = s.spareAllowed := by
    simp only [spareAllowed, episodePolicy, hr]
  have hserved : ({ s with rsq := r, bau := b, ps := x } : State).servedCells = s.servedCells := rfl
  by_cases h : s.spareAllowed = true
  · rw [selectSpares_of_allowed (hallowed ▸ h), selectSpares_of_allowed h, hserved, foldl_assignSpare_blocks]
  · rw [selectSpares_of_not_allowed (hallowed ▸ h), selectSpares_of_not_allowed h]

/-- A latch that changes no more than the roster, the queue's counts and the mark of the settle count, once counted. -/
theorem takeLatch_counted (hm : s.mode = .run) (hr : (s.entry l.port).role ≠ .isolating)
    (he : s.latchEffect l.port = (t, none)) {b : Bypass} {x : PeriodProgress}
    (ht : t = { s with roster := t.roster, bau := b, ps := x }) :
    s.takeLatch l = { s with
        roster := (s.takeLatch l).roster, bau := b, ps := x
        cli := { s.cli with flags := withFlag (withFlag s.cli.flags .latchAccepted) .logWritten }
        log := { next := s.log.next + 1, records := keepSixteen (s.log.records ++
          [{ sequence := s.log.next, stamp := s.ctu.counter, port := some l.port, kind := l.kind, word := l.word
             mode := .run, stage := s.rsq.stage, restartNumber := s.rsq.restartNumber
             nestDepth := s.rsq.nest.length, deficits := none }]) } } ∧
      (s.takeLatch l).entry l.port =
        { t.entry l.port with latchCount := saturate 255 (t.entry l.port).latchCount } ∧
      (∀ q, q ≠ l.port → (s.takeLatch l).entry q = t.entry q) ∧
      (s.takeLatch l).roster = t.roster.set l.port.val
        { t.entry l.port with latchCount := saturate 255 (t.entry l.port).latchCount } := by
  have hdepth : t.nestDepth = s.rsq.nest.length := by rw [ht]; rfl
  rw [takeLatch_calm hm hr he, hdepth]
  refine ⟨?_, countLatch_entry_self .., fun q hq => countLatch_entry_ne _ _ _ _ hq, rfl⟩
  rw [countLatch_eq]
  conv_lhs => rw [ht]
  rfl

theorem stopSettle_eq (s : State) : s.stopSettle = { s with
    bau := { s.bau with settleCount := if s.rsq.stage = .isolate then 0 else s.bau.settleCount }
    ps := { s.ps with settleDone := s.ps.settleDone && decide (s.rsq.stage ≠ .isolate) } } := by
  cases h : s.rsq.stage <;> simp [stopSettle, h]
  rfl

theorem latchActive_joins (hn : s.rsq.nest ≠ []) (hs : s.rsq.stage = .inhibit ∨ s.rsq.stage = .isolate)
    (hb : (s.link p).state ≠ .lost ∨ s.governingPolicy.blindAllowed = true) :
    s.latchActive p = ((s.makeIsolating p).stopSettle.selectSpares, none) := by
  have hjoin : s.joinRecovery p = ((s.makeIsolating p).stopSettle.selectSpares, none) :=
    if_neg (by simp [blindForbidden_eq_false hb])
  rw [latchActive, if_neg hn]
  rcases hs with hs | hs <;> simp [hs, hjoin]

theorem latchActive_defers (hn : s.rsq.nest ≠ []) (hs : s.rsq.stage = .remap) :
    s.latchActive p = (s.deferLatch p, none) := by
  rw [latchActive, if_neg hn, hs]

theorem latchEffect_none (h : ((s.entry p).role = .active ∧ (s.entry p).deferred = true) ∨ (s.entry p).role = .bypassed ∨
    (s.entry p).role = .failed ∨ (s.entry p).role = .absent) : s.latchEffect p = (s, none) := by
  rcases h with ⟨h, hd⟩ | h | h | h <;> simp [latchEffect, *]

theorem selectionStage_iff : s.selectionStage = true ↔ s.rsq.stage = .inhibit ∨ s.rsq.stage = .isolate := by
  rw [selectionStage]
  split <;> simp_all

theorem reselect_eq (s : State) : s.reselect = { s with roster := s.reselect.roster } := by
  rw [reselect]
  split
  · exact s.selectSpares_selecting.1.rest
  · rfl

theorem reselect_entry (h : (s.entry q).role ≠ .spare) : s.reselect.entry q = s.entry q := by
  rw [reselect]
  split
  · exact selectSpares_entry h
  · rfl

/-- A spare retired, before spare selection for the cell it was to replace. -/
def retired (s : State) (p : Port) : State := s.updEntry p (fun e => { e with role := .bypassed, insertionTarget := none })

theorem retireSpare_def (s : State) (p : Port) :
    s.retireSpare p = if (s.entry p).insertionTarget.isSome then (s.retired p).reselect else s.retired p := rfl

theorem retireSpare_eq (s : State) (p : Port) : s.retireSpare p = { s with roster := (s.retireSpare p).roster } := by
  rw [retireSpare_def]
  split
  · exact (s.retired p).reselect_eq
  · rfl

theorem retireSpare_entry_self (s : State) (p : Port) :
    (s.retireSpare p).entry p = { s.entry p with role := .bypassed, insertionTarget := none } := by
  have hself : (s.retired p).entry p = { s.entry p with role := .bypassed, insertionTarget := none } := by
    rw [retired, updEntry_entry, if_pos rfl]
  rw [retireSpare_def, ← hself]
  split
  · exact reselect_entry (by simp [hself])
  · rfl

theorem retireSpare_entry_ne (s : State) (p q : Port) (h : q ≠ p) :
    (s.retireSpare p).entry q =
      if (s.entry p).insertionTarget.isSome = true ∧ (s.rsq.stage = .inhibit ∨ s.rsq.stage = .isolate) then
        (s.retired p).selectSpares.entry q
      else s.entry q := by
  have hkept : (s.retired p).entry q = s.entry q := by
    rw [retired, updEntry_entry, if_neg (fun he => h he.symm)]
  have hstage : (s.retired p).selectionStage = true ↔ s.rsq.stage = .inhibit ∨ s.rsq.stage = .isolate := selectionStage_iff
  rw [retireSpare_def]
  by_cases hsome : (s.entry p).insertionTarget.isSome = true
  · by_cases hs : s.rsq.stage = .inhibit ∨ s.rsq.stage = .isolate
    · rw [if_pos hsome, if_pos ⟨hsome, hs⟩, reselect, if_pos (hstage.mpr hs)]
    · rw [if_pos hsome, if_neg (fun h => hs h.2), reselect, if_neg (fun h => hs (hstage.mp h)), hkept]
  · rw [if_neg hsome, if_neg (fun h => hsome h.1), hkept]

end State

/-- Settles O34: by the role of the cell and the stage, one latch that leads to no trip. -/
theorem latchWithoutPush : Obligations.LatchWithoutPush := by
  unfold Obligations.LatchWithoutPush
  intro s l hm e t counted marked
  refine ⟨fun hr => State.takeLatch_isolating hm hr, fun hr => ⟨fun hn ha hd hs hb => ?_, fun hn ha hd hs => ?_,
    fun hspare => ?_, fun h => ?_⟩⟩
  · intro joined
    have he : s.latchEffect l.port = ((s.makeIsolating l.port).stopSettle.selectSpares, none) := by
      rw [State.latchEffect_active ha hd, State.latchActive_joins hn hs hb]
    let b : Bypass := { s.bau with settleCount := if s.rsq.stage = .isolate then 0 else s.bau.settleCount
                                   blindStart := s.bau.blindStart.set l.port.val (some s.ctu.counter) }
    let x : PeriodProgress := { s.ps with settleDone := s.ps.settleDone && decide (s.rsq.stage ≠ .isolate) }
    have hstopped : (s.makeIsolating l.port).stopSettle = { joined with bau := b, ps := x } := by
      rw [State.stopSettle_eq, State.makeIsolating_eq, ← hd]
    have hselected : (s.makeIsolating l.port).stopSettle.selectSpares = { joined.selectSpares with bau := b, ps := x } := by
      have hjoined : joined.selectSpares = { s with roster := joined.selectSpares.roster } :=
        joined.selectSpares_selecting.1.rest
      have hselect := joined.selectSpares_blocks (r := s.rsq) rfl b x
      rw [hjoined] at hselect ⊢
      rw [hstopped]
      exact hselect
    have hjoined : joined.selectSpares = { s with roster := joined.selectSpares.roster } :=
      joined.selectSpares_selecting.1.rest
    obtain ⟨heq, hself, hother, -⟩ := State.takeLatch_counted (b := b) (x := x) hm hr he (by rw [hselected, hjoined])
    refine ⟨heq, hself.trans ?_, fun q hq => (hother q hq).trans (by rw [hselected]; rfl)⟩
    have hentry : joined.entry l.port = { e with role := .isolating } := by simp [joined, State.entry]
    have hkept : ((s.makeIsolating l.port).stopSettle.selectSpares).entry l.port = { e with role := .isolating } := by
      rw [hselected, ← hentry]
      exact State.selectSpares_entry (by simp [hentry])
    rw [hkept]
  · have he : s.latchEffect l.port = (s.deferLatch l.port, none) := by
      rw [State.latchEffect_active ha hd, State.latchActive_defers hn hs]
    obtain ⟨heq, -, -, hroster⟩ := State.takeLatch_counted (b := s.bau) (x := s.ps) hm hr he rfl
    have hself : (s.deferLatch l.port).entry l.port = { e with deferred := true } := by
      rw [State.deferLatch, State.updEntry_entry, if_pos rfl]
    rw [hroster, hself, State.deferLatch, State.updEntry_roster, Vector.set_set] at heq
    exact heq
  · intro retired
    have he : s.latchEffect l.port = (s.retireSpare l.port, none) := by
      rw [State.latchEffect, hspare]
    obtain ⟨heq, hself, hother, -⟩ :=
      State.takeLatch_counted (b := s.bau) (x := s.ps) hm hr he (s.retireSpare_eq l.port)
    refine ⟨heq, ?_, fun q hq => (hother q hq).trans (s.retireSpare_entry_ne l.port q hq)⟩
    rw [hself, State.retireSpare_entry_self]
  · obtain ⟨heq, -, -, hroster⟩ := State.takeLatch_counted (t := s) hm hr (State.latchEffect_none h) rfl
    rw [hroster] at heq
    exact heq

/-! ### Latches outside RUN (R11, R18, R120) -/

namespace State

variable {s t : State} {l : Latch} {p q : Port}

/-- A cell put out of its string, the string renumbered and the latch counted. -/
def putOut (s : State) (l : Latch) (f : RosterEntry → RosterEntry) : State :=
  ((s.updEntry l.port f).renumberPhase (phaseOf l.port)).countLatch l s.mode .normal 0

theorem takeLatch_outside (hm : s.mode ≠ .run) : s.takeLatch l = s.latchOutsideRun l := if_neg hm

theorem latchOutsideRun_active (hr : (s.entry l.port).role = .active) :
    s.latchOutsideRun l = s.putOut l (fun e => { e with role := .failed, position := none }) := by
  rw [latchOutsideRun, hr]
  rfl

theorem latchOutsideRun_spare (hr : (s.entry l.port).role = .spare) :
    s.latchOutsideRun l = s.putOut l (fun e => { e with role := .bypassed, insertionTarget := none }) := by
  rw [latchOutsideRun, hr]
  rfl

theorem latchOutsideRun_none (ha : (s.entry l.port).role ≠ .active) (hs : (s.entry l.port).role ≠ .spare) :
    s.latchOutsideRun l = s := by
  rw [latchOutsideRun]
  split <;> simp_all

theorem putOut_eq (s : State) (l : Latch) (f : RosterEntry → RosterEntry) :
    s.putOut l f = { s with
      roster := (s.putOut l f).roster
      cli := { s.cli with flags := withFlag (withFlag s.cli.flags .latchAccepted) .logWritten }
      log := { next := s.log.next + 1, records := keepSixteen (s.log.records ++
        [{ sequence := s.log.next, stamp := s.ctu.counter, port := some l.port, kind := l.kind, word := l.word
           mode := s.mode, stage := .normal, restartNumber := s.rsq.restartNumber, nestDepth := 0
           deficits := none }]) } } := by
  have hrenumbered (u : State) (x : Phase) : u.renumberPhase x = { u with roster := (u.renumberPhase x).roster } := rfl
  rw [putOut, countLatch_eq, hrenumbered]
  rfl

theorem putOut_entry_self {f : RosterEntry → RosterEntry} (hf : (f (s.entry l.port)).inString = false) :
    (s.putOut l f).entry l.port =
      { f (s.entry l.port) with latchCount := saturate 255 (f (s.entry l.port)).latchCount } := by
  have hself : (s.updEntry l.port f).entry l.port = f (s.entry l.port) := by rw [updEntry_entry, if_pos rfl]
  rw [putOut, countLatch_entry_self, renumberPhase_entry, if_pos rfl, hself, renumbered_of_not_inString _ _ hf]

theorem putOut_entry_ne {f : RosterEntry → RosterEntry} (h : q ≠ l.port) :
    (s.putOut l f).entry q =
      if phaseOf q = phaseOf l.port then (s.updEntry l.port f).renumbered q (s.entry q) else s.entry q := by
  have hother : (s.updEntry l.port f).entry q = s.entry q := by rw [updEntry_entry, if_neg (fun he => h he.symm)]
  rw [putOut, countLatch_entry_ne _ _ _ _ h, renumberPhase_entry, hother]

theorem putOut_phaseString {f : RosterEntry → RosterEntry} (hf : (f (s.entry l.port)).inString = false) (x : Phase) :
    (s.putOut l f).phaseString x = (s.phaseString x).filter (fun q => q ≠ l.port) := by
  rw [putOut, (countLatch_samePlaces _ _ _ _ _).phaseString, renumberPhase_phaseString,
    phaseString_of_subset (s := s) (fun q _ hq => ?_)]
  · refine List.filter_congr (fun q hq => ?_)
    rw [updEntry_entry]
    split
    · subst q
      simp [hf]
    · rename_i hne
      simp [(mem_phaseString.mp hq).2, Ne.symm hne]
  · rw [updEntry_entry] at hq ⊢
    split at hq
    · rw [hf] at hq
      cases hq
    · rw [if_neg ‹_›]
      exact ⟨hq, rfl⟩

theorem putOut_numbered (s : State) (l : Latch) (f : RosterEntry → RosterEntry) :
    (s.putOut l f).Numbered (phaseOf l.port) := by
  have hplaces := ((s.updEntry l.port f).renumberPhase (phaseOf l.port)).countLatch_samePlaces l s.mode .normal 0
  exact ((s.updEntry l.port f).renumberPhase_numbered (phaseOf l.port)).congr (fun p _ => (hplaces p).string)
    (fun p _ => (hplaces p).position)

end State

/-- Settles O36: the cell leaves its string, which is renumbered. -/
theorem latchOutsideRun : Obligations.LatchOutsideRun := by
  unfold Obligations.LatchOutsideRun
  intro s l hm e t
  have ht : t = s.latchOutsideRun l := State.takeLatch_outside hm
  refine ⟨fun hr => ?_, fun ha hs => ht.trans (State.latchOutsideRun_none ha hs)⟩
  obtain ⟨f, hf, hout⟩ : ∃ f : RosterEntry → RosterEntry, t = s.putOut l f ∧ (f e).inString = false ∧
      { f e with latchCount := saturate 255 (f e).latchCount } = (if e.role = .active
        then { e with role := .failed, position := none, latchCount := saturate 255 e.latchCount }
        else { e with role := .bypassed, insertionTarget := none, latchCount := saturate 255 e.latchCount }) := by
    by_cases ha : e.role = .active
    · exact ⟨_, ht.trans (State.latchOutsideRun_active ha), rfl, by rw [if_pos ha]⟩
    · exact ⟨_, ht.trans (State.latchOutsideRun_spare (hr.resolve_left ha)), rfl, by rw [if_neg ha]⟩
  clear_value t
  subst hf
  refine ⟨(State.putOut_entry_self hout.1).trans hout.2, fun q hq => ?_, fun q hqs hq => ?_,
    State.putOut_phaseString hout.1, s.putOut_numbered l f, s.putOut_eq l f⟩
  · rw [State.putOut_entry_ne hq]
    split
    · exact State.renumbered_eq _ q _
    · rfl
  · rw [State.putOut_entry_ne hq]
    split
    · rename_i hphase
      exact State.renumbered_of_not_inString _ q (hqs.resolve_left (fun h => h hphase))
    · rfl

end Sys2Proof.Machine

/-! ### Events that are one step of a period start, and the sequencer's response (chapter 2; logs 2, 3) -/

namespace Sys2Proof.Machine

namespace State

variable {s t u : State}

/-- A step noted as taken at this period start. -/
def taking (s : State) (x : PsStep) : State := { s with ps := { s.ps with taken := x :: s.ps.taken } }

@[simp] theorem taking_entry (s : State) (x : PsStep) (p : Port) : (s.taking x).entry p = s.entry p := rfl

theorem takeOne_of_not_taken {x : PsStep} (h : x ∉ s.ps.taken) : s.takeOne x = (s.taking x).runStep x :=
  if_neg (by simpa using h)

/-- An event that is one step takes it where the step is still to come and its condition holds. -/
theorem stepEvent_of {x : PsStep} {cond : State → Bool} (h : x ∉ (s.openPeriod.prepare x).ps.taken)
    (hc : cond (s.openPeriod.prepare x) = true) :
    s.stepEvent x cond = ((s.openPeriod.prepare x).taking x).runStep x := by
  rw [stepEvent, if_pos (by simp [h, hc]), takeOne_of_not_taken h]

/-! #### The gap step -/

/-- The gap count as the gap step leaves it in a gap stage. -/
def gapAfter (s : State) : Nat := if s.rsq.nest = [] then s.rsq.gapCount else s.rsq.gapCount + 1

/-- The state with the gap count advanced where an episode is open. -/
def counted (s : State) : State := { s with rsq := { s.rsq with gapCount := s.gapAfter } }

/-- The stages in which the gap step counts. -/
def GapStage (s : State) : Prop :=
  s.rsq.stage = .inhibit ∨ s.rsq.stage = .isolate ∨ s.rsq.stage = .remap ∨ s.rsq.stage = .align ∨
    (s.rsq.stage = .awaitGrant ∧ s.rsq.grantPending = false)

/-- An open episode stays within its budget at this gap step. -/
def Within (s : State) : Prop := s.rsq.nest ≠ [] → s.rsq.gapCount + 1 < s.governingPolicy.gapBudget

theorem gapRuns_of_gapStage (h : s.GapStage) : s.gapRuns = !s.rsq.nest.isEmpty := by
  rcases h with h | h | h | h | ⟨h, hg⟩ <;> simp [gapRuns, inGapStage, resumeDue, *]

theorem gapStep_of_gapStage (h : s.GapStage) : s.gapStep = s.counted := by
  rw [gapStep, gapRuns_of_gapStage h, counted, gapAfter]
  by_cases hn : s.rsq.nest = []
  · rw [if_neg (by simp [hn]), if_pos hn]
  · rw [if_pos (by simp [hn]), if_neg hn]
    rfl

theorem gapExpires_of_gapStage (hm : s.mode = .run) (h : s.GapStage) :
    s.gapExpires = true ↔ s.rsq.nest ≠ [] ∧ s.governingPolicy.gapBudget ≤ s.rsq.gapCount + 1 := by
  simp [gapExpires, hm, gapRuns_of_gapStage h]

theorem not_gapExpires_of_within (h : s.GapStage) (hw : s.Within) : s.gapExpires = false := by
  rw [gapExpires, gapRuns_of_gapStage h]
  by_cases hn : s.rsq.nest = []
  · simp [hn]
  · have := hw hn
    simp only [Bool.and_eq_false_iff, decide_eq_false_iff_not]
    exact Or.inr (by omega)

theorem gapRuns_eq_false (h : s.rsq.stage = .normal ∨ s.rsq.stage = .resume ∨
    (s.rsq.stage = .awaitGrant ∧ s.rsq.grantPending = true)) : s.gapRuns = false := by
  rcases h with h | h | ⟨h, hg⟩ <;> simp [gapRuns, inGapStage, resumeDue, *]

/-- In a gap stage the sequencer's response is the gap count and then the stage. -/
theorem sequencerStep_counted (hm : s.mode = .run) (h : s.GapStage) (hw : s.Within) :
    s.sequencerStep = s.counted.stageProgress := by
  rw [sequencerStep, if_pos hm, if_neg (by simp [not_gapExpires_of_within h hw]), gapStep_of_gapStage h]

/-- Where no gap runs the sequencer's response is the stage alone. -/
theorem sequencerStep_uncounted (hm : s.mode = .run) (h : s.gapRuns = false) : s.sequencerStep = s.stageProgress := by
  have hexpires : s.gapExpires = false := by simp [gapExpires, h]
  have hstep : s.gapStep = s := if_neg (by simp [h])
  rw [sequencerStep, if_pos hm, if_neg (by simp [hexpires]), hstep]

theorem sequencerStep_expires (hm : s.mode = .run) (h : s.GapStage) (hn : s.rsq.nest ≠ [])
    (hb : s.governingPolicy.gapBudget ≤ s.rsq.gapCount + 1) :
    s.sequencerStep = s.counted.requestTrip { cause := .gapExpired } := by
  rw [sequencerStep, if_pos hm, if_pos ((gapExpires_of_gapStage hm h).mpr ⟨hn, hb⟩), gapStep_of_gapStage h]

theorem sequencerStep_idle (h : s.mode ≠ .run ∨ s.rsq.stage = .normal) : s.sequencerStep = s := by
  by_cases hm : s.mode = .run
  · have hs : s.rsq.stage = .normal := h.resolve_left (fun hn => hn hm)
    rw [sequencerStep_uncounted hm (gapRuns_eq_false (Or.inl hs)), stageProgress, hs]
  · exact if_neg hm

/-! #### The stages in turn -/

theorem stageProgress_inhibit_entered (hs : s.rsq.stage = .inhibit) (he : s.ps.inhibitEntered = true) :
    s.stageProgress = s := by
  rw [stageProgress, hs]
  exact if_pos he

theorem stageProgress_inhibit_goesOn (hs : s.rsq.stage = .inhibit) (he : s.ps.inhibitEntered = false)
    (hc : s.rsq.inhibitCount + 1 < s.settings.inhibitHold) :
    s.stageProgress = { s with rsq := { s.rsq with inhibitCount := s.rsq.inhibitCount + 1 } } := by
  rw [stageProgress, hs]
  exact (if_neg (by simp [he])).trans (if_neg (by omega))

theorem stageProgress_inhibit_ends (hs : s.rsq.stage = .inhibit) (he : s.ps.inhibitEntered = false)
    (hc : s.settings.inhibitHold ≤ s.rsq.inhibitCount + 1) :
    s.stageProgress = { s with
      rsq := { s.rsq with stage := .isolate, inhibitCount := s.rsq.inhibitCount + 1 }
      bau := { s.bau with settleCount := 0 }, roster := s.selectSpares.roster } := by
  have hselect := s.selectSpares_blocks
    (r := { s.rsq with stage := .isolate, inhibitCount := s.rsq.inhibitCount + 1 }) rfl
    { s.bau with settleCount := 0 } s.ps
  rw [(s.selectSpares_selecting.1.rest : s.selectSpares = _)] at hselect
  have henter : s.stageProgress = ({ s with
      rsq := { s.rsq with stage := .isolate, inhibitCount := s.rsq.inhibitCount + 1 }
      bau := { s.bau with settleCount := 0 }, ps := s.ps } : State).selectSpares := by
    rw [stageProgress, hs]
    exact (if_neg (by simp [he])).trans (if_pos hc)
  rw [henter, hselect]

theorem stageProgress_isolate (hs : s.rsq.stage = .isolate) :
    s.stageProgress = if s.ps.settleDone then { s with rsq := { s.rsq with stage := .remap } } else s := by
  rw [stageProgress, hs]
  rfl

theorem allAligned_iff : s.allAligned = true ↔
    s.ctu.windowStart.isSome = true ∧ ∀ p, (s.entry p).inString = true → (s.cport p).aligned = true := by
  simp [allAligned, stringCells, mem_allPorts, ← Bool.not_eq_true, ← imp_iff_not_or]

theorem stageProgress_align (hs : s.rsq.stage = .align) :
    s.stageProgress = if s.allAligned then
      { s with rsq := { s.rsq with stage := .awaitGrant }, ctu := { s.ctu with windowStart := none } } else s := by
  rw [stageProgress, hs]
  rfl

theorem stageProgress_awaitGrant (hs : s.rsq.stage = .awaitGrant) :
    s.stageProgress = if s.rsq.grantPending then
      { s with rsq := { s.rsq with stage := .resume, grantPending := false, resumeIndex := 1
                                   resumeLength := s.governingPolicy.rampPeriods
                                   rampGain := 1024 / s.governingPolicy.rampPeriods } } else s := by
  rw [stageProgress, hs]
  rfl

theorem stageProgress_resume_goesOn (hs : s.rsq.stage = .resume) (hk : s.rsq.resumeIndex < s.rsq.resumeLength) :
    s.stageProgress = { s with rsq := { s.rsq with
      resumeIndex := s.rsq.resumeIndex + 1
      rampGain := 1024 * (s.rsq.resumeIndex + 1) / s.rsq.resumeLength } } := by
  rw [stageProgress, hs]
  exact if_pos hk

theorem stageProgress_resume_ends (hs : s.rsq.stage = .resume) (hk : s.rsq.resumeLength ≤ s.rsq.resumeIndex) :
    s.stageProgress = s.endResume := by
  rw [stageProgress, hs]
  exact if_neg (by omega)

theorem endResume_eq (s : State) : s.endResume = if s.rsq.nest = [] then
      { s with rsq := { s.rsq with stage := .normal, rampGain := 1024 } }
    else { s with
      rsq := { s.rsq with stage := .normal, rampGain := 1024, nest := [] }
      cli := { s.cli with flags := withFlag s.cli.flags .logWritten }
      log := { next := s.log.next + 1, records := keepSixteen (s.log.records ++
        [{ sequence := s.log.next, stamp := s.ctu.counter, port := none, kind := .recovered, word := none
           mode := s.mode, stage := .normal, restartNumber := s.rsq.restartNumber, nestDepth := s.rsq.nest.length
           deficits := some s.deficits }]) } } := by
  by_cases hn : s.rsq.nest = []
  · rw [endResume, if_pos (by simp [hn]), if_pos hn]
    rfl
  · rw [endResume, if_neg (by simp [hn]), if_neg hn]
    rfl

theorem counted_selectSpares_roster (s : State) (x : PsStep) :
    (s.taking x).counted.selectSpares.roster = s.selectSpares.roster := by
  have h := s.selectSpares_blocks (r := { s.rsq with gapCount := s.gapAfter }) rfl s.bau
    { s.ps with taken := x :: s.ps.taken }
  have hroster := congrArg State.roster h
  exact hroster

/-- What the events of the sequencer's response come to: the response, where its condition holds. -/
theorem sequencerEvent {cond : State → Bool} (hx : .sequencer ∉ (s.openPeriod.prepare .sequencer).ps.taken)
    (hc : cond (s.openPeriod.prepare .sequencer) = true) :
    s.stepEvent .sequencer cond = ((s.openPeriod.prepare .sequencer).taking .sequencer).sequencerStep :=
  stepEvent_of hx hc

theorem progressesIn_iff {st : Stage} : s.progressesIn st = true ↔
    s.mode = .run ∧ s.rsq.stage = st ∧ s.gapExpires = false := by
  simp [progressesIn, and_assoc]

end State

/-- Settles O51: the stage progressions one by one, with the gap step before them. -/
theorem stagesEndAtPeriodStart : Obligations.StagesEndAtPeriodStart := by
  unfold Obligations.StagesEndAtPeriodStart
  refine ⟨fun s hr => ?_, fun s => ?_⟩
  · intro u ps gap hx hm
    have hevent {cond : State → Bool} (hc : cond u = true) :
        s.unlessHeld (fun t => t.stepEvent .sequencer cond) = (u.taking .sequencer).sequencerStep := by
      rw [State.unlessHeld_of_running hr]
      exact State.sequencerEvent hx hc
    have hended {st : Stage} (hs : u.rsq.stage = st) (hexp : u.gapExpires = false) : u.progressesIn st = true :=
      State.progressesIn_iff.mpr ⟨hm, hs, hexp⟩
    clear_value u
    refine ⟨fun hs hn hb he hc => ?_, fun hs hn hb hd => ?_, fun hs hb hw ha => ?_, fun hs hg => ?_,
      fun hs hk => ⟨fun hn => ?_, fun hn => ?_⟩⟩
    · have hends : u.inhibitEnds = true := by
        simp [State.inhibitEnds, hended hs (State.not_gapExpires_of_within (Or.inl hs) (fun _ => hb)), he, hc]
      rw [exec, execInhibitHoldExpiry, hevent hends,
        State.sequencerStep_counted (s := u.taking .sequencer) hm (Or.inl hs) (fun _ => hb),
        State.stageProgress_inhibit_ends (s := (u.taking .sequencer).counted) hs he hc,
        State.counted_selectSpares_roster]
      rfl
    · have hgap : u.GapStage := Or.inr (Or.inl hs)
      have hends : u.isolateEnds = true := by
        simp [State.isolateEnds, hended hs (State.not_gapExpires_of_within hgap (fun _ => hb)), hd]
      rw [exec, execSettleComplete, hevent hends,
        State.sequencerStep_counted (s := u.taking .sequencer) hm hgap (fun _ => hb),
        State.stageProgress_isolate (s := (u.taking .sequencer).counted) hs]
      exact congrArg _ (if_pos hd)
    · have hgap : u.GapStage := Or.inr (Or.inr (Or.inr (Or.inl hs)))
      have haligned : u.allAligned = true := State.allAligned_iff.mpr ⟨hw, ha⟩
      have hends : u.alignEnds = true := by
        simp [State.alignEnds, hended hs (State.not_gapExpires_of_within hgap hb), haligned]
      rw [exec, execAlignComplete, hevent hends, State.sequencerStep_counted (s := u.taking .sequencer) hm hgap hb,
        State.stageProgress_align (s := (u.taking .sequencer).counted) hs]
      exact congrArg _ (if_pos haligned)
    · have hidle : u.gapRuns = false := State.gapRuns_eq_false (Or.inr (Or.inr ⟨hs, hg⟩))
      have hends : u.resumeBegins = true := by
        simp [State.resumeBegins, hended hs (by simp [State.gapExpires, hidle]), hg]
      rw [exec, execResumeEntry, hevent hends, State.sequencerStep_uncounted (s := u.taking .sequencer) hm hidle,
        State.stageProgress_awaitGrant (s := u.taking .sequencer) hs]
      exact congrArg _ (if_pos hg)
    all_goals
      have hidle : u.gapRuns = false := State.gapRuns_eq_false (Or.inr (Or.inl hs))
      have hends : u.resumeEnds = true := by
        simp [State.resumeEnds, hended hs (by simp [State.gapExpires, hidle]), hk]
      rw [exec, execResumeEnd, hevent hends, State.sequencerStep_uncounted (s := u.taking .sequencer) hm hidle,
        State.stageProgress_resume_ends (s := u.taking .sequencer) hs hk, State.endResume_eq]
    · exact congrArg _ (if_pos hn)
    · rw [if_neg (show ¬(u.taking .sequencer).rsq.nest = [] from hn)]
      conv_rhs => rw [← hm]
      rfl
  · intro gap within
    refine ⟨State.sequencerStep_idle, fun hm hs hw he => ?_, fun hm hs hw he hc => ?_, fun hm hw hs => ?_,
      fun hm hs hk => ?_⟩
    · exact (State.sequencerStep_counted hm (Or.inl hs) hw).trans
        (State.stageProgress_inhibit_entered (s := s.counted) hs he)
    · exact (State.sequencerStep_counted hm (Or.inl hs) hw).trans
        (State.stageProgress_inhibit_goesOn (s := s.counted) hs he hc)
    · rcases hs with ⟨hs, hd⟩ | ⟨hs, hg⟩ | ⟨hs, ha⟩
      · exact ((State.sequencerStep_counted hm (Or.inr (Or.inl hs)) hw).trans
          (State.stageProgress_isolate (s := s.counted) hs)).trans (if_neg (by simp [State.counted, hd]))
      · exact ((State.sequencerStep_counted hm (Or.inr (Or.inr (Or.inr (Or.inr ⟨hs, hg⟩)))) hw).trans
          (State.stageProgress_awaitGrant (s := s.counted) hs)).trans (if_neg (by simp [State.counted, hg]))
      · refine ((State.sequencerStep_counted hm (Or.inr (Or.inr (Or.inr (Or.inl hs)))) hw).trans
          (State.stageProgress_align (s := s.counted) hs)).trans (if_neg (fun h => ?_))
        obtain ⟨hw, hall⟩ := State.allAligned_iff.mp h
        rcases ha with ha | ⟨p, hp, ha⟩
        · rw [show s.counted.ctu.windowStart = none from ha] at hw
          cases hw
        · have := hall p hp
          rw [show (s.counted.cport p).aligned = false from ha] at this
          cases this
    · exact (State.sequencerStep_uncounted hm (State.gapRuns_eq_false (Or.inr (Or.inl hs)))).trans
        (State.stageProgress_resume_goesOn hs hk)

end Sys2Proof.Machine

/-! ### The alignment window, the blind deeming, the leak and the PERIOD marks (R65, R106, R118, R156) -/

namespace Sys2Proof.Machine

namespace State

variable {s t u : State}

theorem windowFailures_of_closed (hm : s.mode = .run) (hs : s.rsq.stage = .align)
    (hw : s.ctu.windowStart = some (s.ctu.counter - BitVec.ofNat 32 s.settings.alignLimit)) :
    s.windowFailures = (List.finRange 24).filter (fun p => (s.entry p).inString && !(s.cport p).aligned) := by
  have hclosed : s.aligning = true ∧ s.ctu.windowStart.any
      (fun w => s.ctu.counter == w + BitVec.ofNat 32 s.settings.alignLimit) = true := by
    simp [aligning, hm, hs, hw]
  rw [windowFailures, if_pos hclosed, stringCells, List.filter_filter]
  exact List.filter_congr (fun p _ => Bool.and_comm _ _)

theorem failAlign_eq : failAlign = fun (v : State) (p : Port) =>
    if v.mode = .run then v.takeLatch { kind := .alignFail, port := p } else v := by
  funext v p
  rw [failAlign]
  split
  · rw [takeLatch, if_pos ‹_›]
  · rfl

/-- The steps that come before one are not taken again by it. -/
theorem windowStep_of_failures (h : s.windowFailures ≠ []) :
    s.windowStep = s.windowFailures.foldl failAlign (s.raise .alignFail) := by rw [windowStep, if_neg h]

end State

/-- Settles O53: the window's failures and their latches. -/
theorem alignWindowCloses : Obligations.AlignWindowCloses := by
  unfold Obligations.AlignWindowCloses
  intro s hr u hx hm hs hw failing hne
  have hfailures : u.windowFailures = failing := State.windowFailures_of_closed hm hs hw
  have hexpires : u.windowExpires = true := by simp [State.windowExpires, hfailures, hne]
  have htaken : (u.taking .window).windowFailures = failing := hfailures
  rw [exec, execAlignWindowExpiry, State.unlessHeld_of_running hr, State.stepEvent_of hx hexpires, State.runStep,
    State.windowStep_of_failures (s := u.taking .window) (by rw [htaken]; exact hne), htaken, State.failAlign_eq]
  rfl

namespace State

variable {s t u : State} {p q : Port}

/-! #### Blind deeming -/

theorem deemable_iff : s.deemable p = true ↔ (s.entry p).role = .isolating ∧ (s.link p).state = .lost ∧
    (∃ e, s.episodePolicy = some e ∧ e.blindAllowed = true) ∧ (s.entry p).blind = false ∧
    ∃ b, s.bau.blindStart[p.val] = some b ∧ s.settings.blindWait ≤ (s.ctu.counter - b).toNat := by
  simp only [deemable, Bool.and_eq_true, beq_iff_eq, Bool.not_eq_true', Option.any_eq_true,
    decide_eq_true_eq, and_assoc]
  rfl

theorem deemClosed_eq (s : State) (p : Port) :
    s.deemClosed p = { s with
      roster := s.roster.set p.val { s.entry p with blind := true, bypassOrder := .closed }
      bau := { s.bau with queue :=
        if s.inFlight?.any (fun a => a.port == p && a.dir == .closed) then s.bau.queue.drop 1 else s.bau.queue } } := by
  rw [deemClosed]
  split <;> rfl

/-- Deeming cells closed one after another touches them and the queue, and nothing else. -/
theorem foldl_deemClosed (l : List Port) (hl : l.Nodup) (s : State) :
    (l.foldl deemClosed s) = { s with roster := (l.foldl deemClosed s).roster
                                      bau := { s.bau with queue := (l.foldl deemClosed s).bau.queue } } ∧
      (∀ p ∈ l, (l.foldl deemClosed s).entry p = { s.entry p with blind := true, bypassOrder := .closed }) ∧
      ∀ p ∉ l, (l.foldl deemClosed s).entry p = s.entry p := by
  induction l generalizing s with
  | nil => exact ⟨rfl, by simp, fun p _ => rfl⟩
  | cons p l ih =>
    obtain ⟨hp, hl⟩ := List.nodup_cons.mp hl
    obtain ⟨hrest, hin, hout⟩ := ih hl (s.deemClosed p)
    have hself : (s.deemClosed p).entry p = { s.entry p with blind := true, bypassOrder := .closed } := by
      simp [deemClosed_eq, entry]
    have hother (q : Port) (hq : q ≠ p) : (s.deemClosed p).entry q = s.entry q := by
      rw [deemClosed_eq, entry, Vector.getElem_set_ne _ _ (fun hv => hq (Fin.ext hv.symm))]
      rfl
    rw [List.foldl_cons]
    refine ⟨?_, fun q hq => ?_, fun q hq => ?_⟩
    · rw [hrest, deemClosed_eq]
    · rcases List.mem_cons.mp hq with rfl | hq
      · rw [hout q hp, hself]
      · rw [hin q hq, hother q (fun he => hp (he ▸ hq))]
    · rw [hout q (fun hm => hq (List.mem_cons_of_mem _ hm)), hother q (fun he => hq (he ▸ List.mem_cons_self))]

/-- With none but the head in flight, the entry in flight leaves the queue exactly where its port is deemed closed. -/
theorem foldl_deemClosed_queue (l : List Port) (s : State) {a : Actuation} {rest : List Actuation}
    (hq : s.bau.queue = a :: rest) (hrest : ∀ x ∈ rest, x.issued = none) :
    (l.foldl deemClosed s).bau.queue =
      if a.port ∈ l ∧ a.dir = .closed ∧ a.issued.isSome = true then rest else a :: rest := by
  have hidle (l : List Port) (s : State) (hs : ∀ x ∈ s.bau.queue, x.issued = none) :
      (l.foldl deemClosed s).bau.queue = s.bau.queue := by
    induction l generalizing s with
    | nil => rfl
    | cons p l ih =>
      have hnone : s.inFlight? = none := by
        rw [inFlight?]
        cases hh : s.bau.queue with
        | nil => rfl
        | cons x xs => simp [hs x (by simp [hh])]
      have hkept : (s.deemClosed p).bau.queue = s.bau.queue := by simp [deemClosed_eq, hnone]
      rw [List.foldl_cons, ih (s.deemClosed p) (by rw [hkept]; exact hs), hkept]
  induction l generalizing s with
  | nil => simp [hq]
  | cons p l ih =>
    have hflight : s.inFlight?.any (fun x => x.port == p && x.dir == .closed) = true ↔
        a.issued.isSome = true ∧ a.port = p ∧ a.dir = .closed := by
      simp [inFlight?, hq, Option.any_filter]
    have hqueue : (s.deemClosed p).bau.queue =
        if a.issued.isSome = true ∧ a.port = p ∧ a.dir = .closed then rest else a :: rest := by
      simp only [deemClosed_eq, hflight, hq, List.drop_one, List.tail_cons]
    rw [List.foldl_cons]
    by_cases h : a.issued.isSome = true ∧ a.port = p ∧ a.dir = .closed
    · rw [if_pos h] at hqueue
      rw [hidle l _ (by rw [hqueue]; exact hrest), hqueue, if_pos ⟨h.2.1 ▸ List.mem_cons_self, h.2.2, h.1⟩]
    · rw [if_neg h] at hqueue
      rw [ih _ hqueue]
      refine if_congr ?_ rfl rfl
      rw [List.mem_cons]
      constructor
      · exact fun ⟨hm, hrest⟩ => ⟨Or.inr hm, hrest⟩
      · rintro ⟨hm | hm, hd, hi⟩
        · exact absurd ⟨hi, hm, hd⟩ h
        · exact ⟨hm, hd, hi⟩

end State

/-- Settles O56: the cells due are the deemable ones. -/
theorem blindDeemingCloses : Obligations.BlindDeemingCloses := by
  unfold Obligations.BlindDeemingCloses
  intro s hr u due hx hdue
  have hiff (p : Port) : p ∈ allPorts.filter u.deemable ↔ due p := by
    rw [List.mem_filter, State.deemable_iff]
    exact ⟨fun h => h.2, fun h => ⟨State.mem_allPorts p, h⟩⟩
  have hany : u.anyDeemable = true := by
    obtain ⟨p, hp⟩ := hdue
    exact List.any_eq_true.mpr ⟨p, (List.mem_filter.mp ((hiff p).mpr hp))⟩
  obtain ⟨hrest, hin, hout⟩ :=
    State.foldl_deemClosed (allPorts.filter u.deemable) (State.allPorts_nodup.filter _) (u.taking .deem)
  refine ⟨(allPorts.filter u.deemable).foldl State.deemClosed (u.taking .deem), ?_,
    fun p hp => hin p ((hiff p).mpr hp), fun p hp => hout p (fun hm => hp ((hiff p).mp hm)), hrest,
    fun a rest hq hi => ?_⟩
  · rw [exec, execBlindDeeming, State.unlessHeld_of_running hr, State.stepEvent_of hx hany]
    rfl
  · rw [State.foldl_deemClosed_queue _ (u.taking .deem) hq hi, hq]
    exact if_congr (and_congr_left' (hiff a.port)) rfl rfl

end Sys2Proof.Machine

/-! ### The leak, the copying of banks and the PERIOD marks (R111, R118, R155, R156) -/

namespace Sys2Proof.Machine

namespace State

variable {s t u : State}

theorem foldl_copyBank_eq (gs : List Group) (s : State) :
    gs.foldl copyBank s = { s with
      screenActive := if .screen ∈ gs then s.screenStaged else s.screenActive
      ssc := if .screen ∈ gs then { s.ssc with hits := Vector.replicate 16 0 } else s.ssc
      rebalActive := if .rebalance ∈ gs then s.rebalStaged else s.rebalActive
      policyActive := if .policy ∈ gs then s.policyStaged else s.policyActive } := by
  induction gs generalizing s with
  | nil => simp
  | cons g gs ih =>
    rw [List.foldl_cons, ih]
    cases g <;> simp [copyBank]

/-- R111, R155: what copying banks leaves: the banks named, hit counts at 0 with SCREEN, and the flag if any was. -/
theorem copyBanks_eq (s : State) (gs : List Group) :
    s.copyBanks gs = { s with
      screenActive := if .screen ∈ gs then s.screenStaged else s.screenActive
      ssc := if .screen ∈ gs then { s.ssc with hits := Vector.replicate 16 0 } else s.ssc
      rebalActive := if .rebalance ∈ gs then s.rebalStaged else s.rebalActive
      policyActive := if .policy ∈ gs then s.policyStaged else s.policyActive
      cli := { s.cli with flags := withFlagIf s.cli.flags (!gs.isEmpty) .commitApplied } } := by
  rw [copyBanks, raiseIf_eq, foldl_copyBank_eq]
  rfl

theorem mem_periodDue {g : Group} : g ∈ s.periodDue ↔ s.mga.periodMarks.get g = true := by
  cases g <;> simp [periodDue, Group.list]

theorem mem_recoveryDue {g : Group} : g ∈ s.recoveryDue ↔ s.mga.recoveryMarks.get g = true := by
  cases g <;> simp [recoveryDue, Group.list]

theorem exists_group_iff {p : Group → Prop} : (∃ g, p g) ↔ p .screen ∨ p .rebalance ∨ p .policy :=
  ⟨fun ⟨g, h⟩ => by cases g <;> simp [h], fun h => by rcases h with h | h | h <;> exact ⟨_, h⟩⟩

/-- Whether the PERIOD mark of REBALANCE is dropped at this period start (R156). -/
def dropsMark (s : State) : Bool :=
  s.mga.periodMarks.rebalance && s.mode == .run && (rebalLookup s.settings.nNom s.rebalStaged s.deficits).isNone

theorem any_commitDrops : s.periodDue.any s.commitDrops = s.dropsMark := by
  rw [Bool.eq_iff_iff, List.any_eq_true]
  simp only [mem_periodDue, exists_group_iff, commitDrops, dropsMark, stagedLookup]
  simp [GroupMarks.get, and_assoc]

theorem mem_copied {g : Group} : g ∈ s.periodDue.filter (fun g => !s.commitDrops g) ↔
    s.mga.periodMarks.get g = true ∧ ¬(g = .rebalance ∧ s.dropsMark = true) := by
  rw [List.mem_filter, mem_periodDue]
  refine and_congr_right fun hg => ?_
  cases g <;> simp_all [commitDrops, dropsMark, stagedLookup, GroupMarks.get, imp_iff_not_or, Option.isSome_iff_ne_none]

theorem isEmpty_eq_false_iff {gs : List Group} : (!gs.isEmpty) = true ↔ ∃ g, g ∈ gs := by
  rw [Bool.not_eq_true', List.isEmpty_eq_false_iff_exists_mem]

theorem leakStep_due (h : s.leakDue = true) :
    s.leakStep = (s.updSsc (fun c => { c with leakCount := 0 })).mapEntries
      (fun _ e => { e with clipBucket := e.clipBucket - 1 }) := if_pos h

/-- Whether the PERIOD marks copy any bank at this period start (R156). -/
def copiesOnMarks (s : State) : Bool :=
  s.mga.periodMarks.screen || (s.mga.periodMarks.rebalance && !s.dropsMark) || s.mga.periodMarks.policy

/-- R156: what the application of PERIOD marks leaves. -/
theorem commitStep_eq (h : s.periodCommitOpen = true) :
    s.commitStep = { s with
      screenActive := if s.mga.periodMarks.screen = true then s.screenStaged else s.screenActive
      ssc := if s.mga.periodMarks.screen = true then { s.ssc with hits := Vector.replicate 16 0 } else s.ssc
      rebalActive := if (s.mga.periodMarks.rebalance && !s.dropsMark) = true then s.rebalStaged else s.rebalActive
      policyActive := if s.mga.periodMarks.policy = true then s.policyStaged else s.policyActive
      cli := { s.cli with
        flags := withFlagIf (withFlagIf s.cli.flags s.copiesOnMarks .commitApplied) s.dropsMark .commitDropped }
      mga := { s.mga with periodMarks := ⟨false, false, false⟩ } } := by
  have hscreen : .screen ∈ s.periodDue.filter (fun g => !s.commitDrops g) ↔ s.mga.periodMarks.screen = true := by
    rw [mem_copied]
    simp [GroupMarks.get]
  have hrebal : .rebalance ∈ s.periodDue.filter (fun g => !s.commitDrops g) ↔
      (s.mga.periodMarks.rebalance && !s.dropsMark) = true := by
    rw [mem_copied]
    simp [GroupMarks.get]
  have hpolicy : .policy ∈ s.periodDue.filter (fun g => !s.commitDrops g) ↔ s.mga.periodMarks.policy = true := by
    rw [mem_copied]
    simp [GroupMarks.get]
  have hany : (!(s.periodDue.filter (fun g => !s.commitDrops g)).isEmpty) = s.copiesOnMarks := by
    rw [copiesOnMarks, Bool.eq_iff_iff, isEmpty_eq_false_iff, exists_group_iff, hscreen, hrebal, hpolicy, Bool.or_eq_true,
      Bool.or_eq_true, or_assoc]
  rw [commitStep, if_pos h, any_commitDrops, raiseIf_eq, copyBanks_eq, hany]
  simp only [hscreen, hrebal, hpolicy]
  rfl

theorem commitStep_flags (h : s.periodCommitOpen = true) (x : Flag) :
    hasFlag s.commitStep.cli.flags x = (hasFlag s.cli.flags x || (x == .commitDropped && s.dropsMark) ||
      (x == .commitApplied && s.copiesOnMarks)) := by
  rw [commitStep_eq h, Bool.eq_iff_iff]
  simp only [hasFlag_withFlagIf, Bool.or_eq_true, Bool.and_eq_true, beq_iff_eq, or_assoc]
  exact or_congr_right or_comm

end State

/-- Settles O58: the leak, and the copies that the PERIOD marks name. -/
theorem leakAndPeriodMarks : Obligations.LeakAndPeriodMarks := by
  unfold Obligations.LeakAndPeriodMarks
  intro s hr
  constructor
  · intro u hx hdue
    have hleak : u.leakDue = true := by simpa [State.leakDue] using hdue
    refine ⟨(u.taking .leak).leakStep, ?_, fun p => ?_, ?_⟩
    · rw [exec, execClipLeak, State.unlessHeld_of_running hr, State.stepEvent_of hx hleak]
      rfl
    · rw [State.leakStep_due (s := u.taking .leak) hleak, State.mapEntries_entry]
      rfl
    · rw [State.leakStep_due (s := u.taking .leak) hleak, State.mapEntries_eq]
      rfl
  · intro u
    have hu : s.openPeriod.prepare .commit = u := rfl
    clear_value u
    intro m drop hx hopen hmarks
    have hopen : u.periodCommitOpen = true := by simpa [State.periodCommitOpen] using hopen
    have happlies : u.periodApplies = true := by
      rw [State.periodApplies, hopen, Bool.true_and, State.isEmpty_eq_false_iff]
      simp only [State.mem_periodDue]
      exact State.exists_group_iff.mpr hmarks
    have hdrop : (u.taking .commit).dropsMark = drop := rfl
    have hstep := State.commitStep_eq (s := u.taking .commit) hopen
    rw [hdrop] at hstep
    refine ⟨(u.taking .commit).commitStep, ?_, by rw [hstep]; rfl, by rw [hstep]; rfl, by rw [hstep]; rfl,
      fun i => ?_, by rw [hstep]; rfl, fun x => ?_, ?_⟩
    · rw [exec, execPeriodCommitApply, State.unlessHeld_of_running hr,
        State.stepEvent_of (s := s) (hu.symm ▸ hx) (hu.symm ▸ happlies), hu]
      rfl
    · rw [hstep]
      cases hs : m.screen
      · simp [State.taking, m, hs]
      · simp [State.taking, m, hs]
    · exact State.commitStep_flags (s := u.taking .commit) hopen x
    · rw [hstep]
      cases hs : m.screen
      · simp [State.taking, m, hs]
      · simp [State.taking, m, hs]

end Sys2Proof.Machine

/-! ### What a service command does (R148, R151, R152) -/

namespace Sys2Proof.Machine

/-- The result and the detail of the first check that fails, in the order given (R152). -/
def firstFailed : List (Bool × Reject) → Option Reject
  | [] => none
  | x :: xs => if x.1 then firstFailed xs else some x.2

theorem firstFailed_append {pre : List (Bool × Reject)} (h : ∀ x ∈ pre, x.1 = true) (r : Reject)
    (post : List (Bool × Reject)) : firstFailed (pre ++ (false, r) :: post) = some r := by
  induction pre with
  | nil => rfl
  | cons x xs ih =>
    rw [List.cons_append, firstFailed, if_pos (h x List.mem_cons_self)]
    exact ih fun y hy => h y (List.mem_cons_of_mem _ hy)

theorem firstFailed_eq_none {checks : List (Bool × Reject)} (h : ∀ x ∈ checks, x.1 = true) :
    firstFailed checks = none := by
  induction checks with
  | nil => rfl
  | cons x xs ih =>
    rw [firstFailed, if_pos (h x List.mem_cons_self)]
    exact ih fun y hy => h y (List.mem_cons_of_mem _ hy)

/-- A check of the model that is the test of a condition stands in the list as that condition. -/
theorem firstReject_require (c : Bool) (r : Result) (d : Nat) (cs : List (Option Reject)) :
    firstReject (require c r d :: cs) = if c then firstReject cs else some (r, d) := by
  cases c <;> rfl

theorem firstReject_require_cons {cs : List (Option Reject)} {xs : List (Bool × Reject)} {c c' : Bool} (r : Result)
    (d : Nat) (hc : c = c') (h : c' = true → firstReject cs = firstFailed xs) :
    firstReject (require c r d :: cs) = firstFailed ((c', r, d) :: xs) := by
  rw [firstReject_require, firstFailed, hc]
  by_cases hc' : c' = true
  · rw [if_pos hc', if_pos hc', h hc']
  · rw [if_neg hc', if_neg hc']

namespace State

variable {s : State}

theorem buffer_setBuffer_self (s : State) (b : Fin 2) (v : Buffer) : (s.setBuffer b v).buffer b = v := by
  by_cases hb : b = 0 <;> simp [setBuffer, buffer, updMga, hb]

theorem buffer_setBuffer_ne (s : State) {b c : Fin 2} (h : c ≠ b) (v : Buffer) :
    (s.setBuffer b v).buffer c = s.buffer c := by
  by_cases hb : b = 0
  · have hc : c ≠ 0 := hb ▸ h
    simp [setBuffer, buffer, updMga, hb, hc]
  · have hc : c = 0 := by omega
    simp [setBuffer, buffer, updMga, hb, hc]

theorem oldestWaiting?_buffer {b : Fin 2} {f : MgtFrame} (h : s.oldestWaiting? = some (b, f)) :
    ∃ n, s.buffer b = .waiting f n := by
  unfold oldestWaiting? at h
  unfold buffer
  split at h
  · rename_i g m k n h0 h1
    split at h
    all_goals
      cases h
      simp [h0, h1]
  · rename_i g m h0 _
    cases h
    exact ⟨_, h0⟩
  · rename_i g n h1 _
    cases h
    exact ⟨_, h1⟩
  · cases h

theorem answer_eq (s : State) (b : Fin 2) (f : MgtFrame) (v : Verdict) :
    s.answer b f v = { s with
      cli := { s.cli with upstream := s.cli.upstream ++ [.reply b (replyTo f v)] }
      mga := (s.answer b f v).mga } := by
  by_cases hb : b = 0 <;> simp [answer, setBuffer, updMga, updCli, hb]

theorem answer_buffer_self {b : Fin 2} {f : MgtFrame} {n : Nat} (h : s.buffer b = .waiting f n) (g : MgtFrame)
    (v : Verdict) : (s.answer b g v).buffer b = .answered f n := by
  rw [answer, h]
  exact buffer_setBuffer_self s b _

theorem answer_buffer_ne (s : State) {b c : Fin 2} (h : c ≠ b) (g : MgtFrame) (v : Verdict) :
    (s.answer b g v).buffer c = s.buffer c := buffer_setBuffer_ne s h _

theorem answer_mga (s : State) (b : Fin 2) (f : MgtFrame) (v : Verdict) :
    (s.answer b f v).mga =
      { s.mga with buf0 := (s.answer b f v).mga.buf0, buf1 := (s.answer b f v).mga.buf1 } := by
  by_cases hb : b = 0 <;> simp [answer, setBuffer, updMga, updCli, hb]

/-- A service command, given the code, the checks and the effect of the request that it serves. -/
def Serving (c : Instr) (code : Nat) (checks : State → MgtFrame → Option Reject)
    (effect : State → MgtFrame → State × List Byte) : Prop :=
  ∀ s : State, exec c s = .next (s.between (fun t => t.serve (fun n => n == code) checks effect))

theorem serving_readTable : Serving .readTable 1 checkReadTable (reading readTablePayload) := fun _ => rfl
theorem serving_writeTable : Serving .writeTable 2 checkWriteTable (plain writeStore) := fun _ => rfl
theorem serving_commit : Serving .commit 3 checkCommit (plain commitStore) := fun _ => rfl
theorem serving_setConfig :
    Serving .setConfig 4 checkSetConfig (plain (fun u f => u.setSettings (settingsAt f.payload))) := fun _ => rfl
theorem serving_start : Serving .start 5 checkStart (plain (fun u _ => u.startRun)) := fun _ => rfl
theorem serving_stop : Serving .stop 6 checkStop (plain (fun u _ => u.departRun .standby)) := fun _ => rfl
theorem serving_clear : Serving .clear 7 checkClear (plain (fun u _ => u.setMode .standby)) := fun _ => rfl
theorem serving_warmReset : Serving .warmReset 8 checkWarmReset (plain (fun u _ => u.setWarmPending)) := fun _ => rfl
theorem serving_forceZero : Serving .forceZero 9 checkForceZero (plain forceZero) := fun _ => rfl
theorem serving_release : Serving .release 10 checkRelease (plain releasePort) := fun _ => rfl
theorem serving_relink : Serving .relink 11 checkRelink (plain relinkPort) := fun _ => rfl
theorem serving_readLog : Serving .readLog 12 checkReadLog (reading readLogPayload) := fun _ => rfl

theorem serving_of_mem_services {x : Instr × Nat × (State → MgtFrame → Option Reject)} (hx : x ∈ services) :
    ∃ effect, Serving x.1 x.2.1 x.2.2 effect := by
  simp only [services, List.mem_cons, List.not_mem_nil, or_false] at hx
  rcases hx with rfl | rfl | rfl | rfl | rfl | rfl | rfl | rfl | rfl | rfl | rfl | rfl
  exacts [⟨_, serving_readTable⟩, ⟨_, serving_writeTable⟩, ⟨_, serving_commit⟩, ⟨_, serving_setConfig⟩,
    ⟨_, serving_start⟩, ⟨_, serving_stop⟩, ⟨_, serving_clear⟩, ⟨_, serving_warmReset⟩, ⟨_, serving_forceZero⟩,
    ⟨_, serving_release⟩, ⟨_, serving_relink⟩, ⟨_, serving_readLog⟩]

theorem serve_reject {sel : Nat → Bool} {checks : State → MgtFrame → Option Reject}
    {effect : State → MgtFrame → State × List Byte} {b : Fin 2} {f : MgtFrame} {r : Reject}
    (hn : s.nextRequest? = some (b, f)) (hsel : sel f.code.toNat = true) (hr : checks s f = some r) :
    s.serve sel checks effect = s.answer b f (Verdict.fail r) := by
  rw [serve, hn]
  simp only [hsel, hr, if_true]

theorem serve_done {sel : Nat → Bool} {checks : State → MgtFrame → Option Reject}
    {effect : State → MgtFrame → State × List Byte} {b : Fin 2} {f : MgtFrame}
    (hn : s.nextRequest? = some (b, f)) (hsel : sel f.code.toNat = true) (hr : checks s f = none) :
    s.serve sel checks effect = (effect s f).1.answer b f (Verdict.done (effect s f).2) := by
  rw [serve, hn]
  simp only [hsel, hr, if_true]

/-- No request stands first that a service selects: none waits, a warm reset is pending, or its code is another. -/
theorem serve_idle {sel : Nat → Bool} (checks : State → MgtFrame → Option Reject)
    (effect : State → MgtFrame → State × List Byte)
    (h : s.mga.warmPending = true ∨ s.oldestWaiting? = none ∨
      ∃ b f, s.oldestWaiting? = some (b, f) ∧ sel f.code.toNat = false) : s.serve sel checks effect = s := by
  rcases h with hw | hn | ⟨b, f, hn, hsel⟩
  · simp [serve, nextRequest?, hw]
  · simp [serve, nextRequest?, hn]
  · cases hw : s.mga.warmPending <;> simp [serve, nextRequest?, hn, hsel, hw]

theorem nextRequest?_of_oldest {b : Fin 2} {f : MgtFrame} (hfree : s.mga.warmPending = false)
    (ho : s.oldestWaiting? = some (b, f)) : s.nextRequest? = some (b, f) := by
  rw [nextRequest?, hfree]
  exact ho

section

variable {c : Instr} {code : Nat} {checks : State → MgtFrame → Option Reject}
  {effect : State → MgtFrame → State × List Byte} {b : Fin 2} {f : MgtFrame}

theorem Serving.exec_eq (hc : Serving c code checks effect) (hs : s.Settled) :
    exec c s = .next (s.serve (fun n => n == code) checks effect) := by
  rw [hc s, hs.between_eq]

theorem Serving.reject (hc : Serving c code checks effect) (h : s.Serves code b f) {r : Reject}
    (hr : checks s f = some r) :
    exec c s = .next (s.answer b f { result := r.1, detail := r.2, payload := [] }) := by
  have hsel : (f.code.toNat == code) = true := beq_iff_eq.mpr h.code
  rw [hc.exec_eq h.settled,
    serve_reject (sel := fun n => n == code) (nextRequest?_of_oldest h.free h.oldest) hsel hr]
  rfl

theorem Serving.done (hc : Serving c code checks effect) (h : s.Serves code b f) (hr : checks s f = none) :
    exec c s = .next ((effect s f).1.answer b f { result := .done, detail := 0, payload := (effect s f).2 }) := by
  have hsel : (f.code.toNat == code) = true := beq_iff_eq.mpr h.code
  rw [hc.exec_eq h.settled,
    serve_done (sel := fun n => n == code) (nextRequest?_of_oldest h.free h.oldest) hsel hr]
  rfl

/-- The checks of a service, given as a list of conditions, are answered as R152 says. -/
theorem Serving.answersFirstFailure (hc : Serving c code checks effect) (h : s.Serves code b f)
    {list : List (Bool × Reject)} (hl : checks s f = firstFailed list) : s.AnswersFirstFailure c b f list := by
  intro pre r post heq hpre
  exact hc.reject h (by rw [hl, heq, firstFailed_append hpre])

theorem Serving.done_of_checks (hc : Serving c code checks effect) (h : s.Serves code b f)
    {list : List (Bool × Reject)} (hl : checks s f = firstFailed list) (hall : ∀ x ∈ list, x.1 = true) :
    exec c s = .next ((effect s f).1.answer b f { result := .done, detail := 0, payload := (effect s f).2 }) :=
  hc.done h (by rw [hl, firstFailed_eq_none hall])

end

end State

/-- Settles O41: a refusal is answered and leaves everything else alone. -/
theorem refusalChangesNothing : Obligations.RefusalChangesNothing := by
  unfold Obligations.RefusalChangesNothing
  refine ⟨?_, ?_, ?_, ?_, ?_⟩
  · intro x hx s b f r hserves hr
    obtain ⟨effect, hc⟩ := State.serving_of_mem_services hx
    exact hc.reject hserves hr
  · intro s b f hs hfree ho hcode
    rw [exec, execUnknownRequest, hs.between_eq,
      State.serve_reject (State.nextRequest?_of_oldest hfree ho) (r := (.badValue, 255))]
    · rfl
    · simp only [State.unknownCode, within, Bool.not_eq_true', decide_eq_false_iff_not]
      omega
    · rfl
  · intro s b f v ho t
    obtain ⟨n, hn⟩ := State.oldestWaiting?_buffer ho
    refine ⟨?_, ⟨n, State.answer_buffer_self hn f v, hn⟩, fun c hc => State.answer_buffer_ne s hc f v⟩
    conv_lhs => rw [show t = s.answer b f v from rfl, State.answer_eq, State.answer_mga]
    rfl
  · intro x hx s hs hidle
    obtain ⟨effect, hc⟩ := State.serving_of_mem_services hx
    rw [hc.exec_eq hs, State.serve_idle]
    refine hidle.imp_right (Or.imp_right ?_)
    rintro ⟨b, f, ho, hne⟩
    exact ⟨b, f, ho, beq_false_of_ne hne⟩
  · intro s hs hidle
    rw [exec, execUnknownRequest, hs.between_eq, State.serve_idle]
    refine hidle.imp_right (Or.imp_right ?_)
    rintro ⟨b, f, ho, h1, h12⟩
    refine ⟨b, f, ho, ?_⟩
    simp [State.unknownCode, within, h1, h12]

end Sys2Proof.Machine

/-! ### The requests about ports and modes (R159 to R161) -/

namespace Sys2Proof.Machine

theorem byteAt_eq_some_iff {l : List Byte} {i n : Nat} : byteAt l i = some n ↔ i < l.length ∧ byteOr l i = n := by
  by_cases hi : i < l.length
  · simp [byteOr, byteAt, hi]
  · simp [byteOr, byteAt, hi]

theorem byteAt_of_lt {l : List Byte} {i : Nat} (h : i < l.length) : byteAt l i = some (byteOr l i) :=
  byteAt_eq_some_iff.mpr ⟨h, rfl⟩

theorem length_pos_of_isEmpty {α : Type} {l : List α} (h : l.isEmpty = false) : 0 < l.length := by
  cases l with
  | nil => simp at h
  | cons => simp

namespace State

variable {s : State}

theorem isEmpty_eq_decide {α : Type} [DecidableEq α] (l : List α) : l.isEmpty = decide (l = []) := by
  cases l <;> simp

theorem portOf_of_byteOr {f : MgtFrame} {p : Port} (hl : 0 < f.payload.length) (h : byteOr f.payload 0 = p.val) :
    portOf f = some p := by
  simp [portOf, byteAt_of_lt hl, h]

theorem portOf_isSome {f : MgtFrame} (hl : 0 < f.payload.length) :
    (portOf f).isSome = decide (byteOr f.payload 0 ≤ 23) := by
  by_cases h : byteOr f.payload 0 < 24
  · rw [portOf_of_byteOr (p := ⟨byteOr f.payload 0, h⟩) hl rfl, Option.isSome_some, eq_comm, decide_eq_true_eq]
    exact Nat.le_of_lt_succ h
  · have hnone : portOf f = none := by simp [portOf, byteAt_of_lt hl, h]
    rw [hnone, Option.isSome_none, eq_comm, decide_eq_false_iff_not]
    omega

/-- R161: the check of the port a request names, as a condition on its bytes. -/
theorem portNamed_eq (f : MgtFrame) :
    (f.payload.isEmpty || (portOf f).isSome) = decide (f.payload = [] ∨ byteOr f.payload 0 ≤ 23) := by
  cases he : f.payload.isEmpty
  · have hne : f.payload ≠ [] := by simpa using he
    rw [portOf_isSome (length_pos_of_isEmpty he)]
    simp [hne]
  · have hnil : f.payload = [] := by simpa using he
    simp [hnil]

theorem linkState_of_byteOr {f : MgtFrame} {p : Port} (h : byteOr f.payload 0 = p.val) :
    (s.links[byteOr f.payload 0]?).map Link.state = some (s.link p).state := by
  simp [h, link]

theorem exists_port_of_named {f : MgtFrame} (hl : 0 < f.payload.length)
    (h : decide (f.payload = [] ∨ byteOr f.payload 0 ≤ 23) = true) : ∃ p : Port, byteOr f.payload 0 = p.val := by
  have hne : f.payload ≠ [] := List.ne_nil_of_length_pos hl
  have hle : byteOr f.payload 0 ≤ 23 := (of_decide_eq_true h).resolve_left hne
  exact ⟨⟨byteOr f.payload 0, by omega⟩, rfl⟩

theorem checkRelink_eq (s : State) (f : MgtFrame) :
    s.checkRelink f = firstFailed [(decide (f.payload = [] ∨ byteOr f.payload 0 ≤ 23), .badIndex, 0),
      (decide (f.payload.length = 1), .badLength, 0),
      (decide ((s.links[byteOr f.payload 0]?).map Link.state = some .lost), .refusedState, 0)] := by
  refine firstReject_require_cons _ _ (portNamed_eq f) fun hport => ?_
  refine firstReject_require_cons _ _ rfl fun hlen => ?_
  have hlen : 0 < f.payload.length := by simp at hlen; omega
  obtain ⟨p, hp⟩ := exists_port_of_named hlen hport
  refine firstReject_require_cons _ _ ?_ fun _ => rfl
  rw [portOf_of_byteOr hlen hp, linkState_of_byteOr hp]
  simp [beq_eq_decide]

theorem checkForceZero_eq (s : State) (f : MgtFrame) :
    s.checkForceZero f = firstFailed [(decide (f.payload = [] ∨ byteOr f.payload 0 ≤ 23), .badIndex, 0),
      (decide (f.payload.length = 2), .badLength, 0), (decide (byteOr f.payload 1 ≤ 1), .badValue, 0),
      (decide ((s.links[byteOr f.payload 0]?).map Link.state ≠ some .idle), .refusedState, 0)] := by
  refine firstReject_require_cons _ _ (portNamed_eq f) fun hport => ?_
  refine firstReject_require_cons _ _ rfl fun hlen => ?_
  refine firstReject_require_cons _ _ rfl fun _ => ?_
  have hlen : 0 < f.payload.length := by simp at hlen; omega
  obtain ⟨p, hp⟩ := exists_port_of_named hlen hport
  refine firstReject_require_cons _ _ ?_ fun _ => rfl
  rw [portOf_of_byteOr hlen hp, linkState_of_byteOr hp]
  simp [bne, beq_eq_decide]

theorem checkRelease_eq (s : State) (f : MgtFrame) :
    s.checkRelease f = firstFailed [(decide (f.payload = [] ∨ byteOr f.payload 0 ≤ 23), .badIndex, 0),
      (decide (f.payload.length = 1), .badLength, 0)] := by
  refine firstReject_require_cons _ _ (portNamed_eq f) fun _ => ?_
  exact firstReject_require_cons _ _ rfl fun _ => rfl

theorem checkStop_eq (s : State) (f : MgtFrame) :
    s.checkStop f = firstFailed [(decide (s.mode = .run), .refusedMode, 0),
      (decide (f.payload = []), .badLength, 0)] := by
  refine firstReject_require_cons _ _ rfl fun _ => ?_
  exact firstReject_require_cons _ _ (isEmpty_eq_decide _) fun _ => rfl

theorem checkClear_eq (s : State) (f : MgtFrame) :
    s.checkClear f = firstFailed [(decide (s.mode = .tripped ∨ s.mode = .safeStop), .refusedMode, 0),
      (decide (f.payload = []), .badLength, 0),
      (decide (s.mode = .tripped ∨ s.lines.safetyStopN = true), .refusedState, 2)] := by
  refine firstReject_require_cons _ _ (by cases s.mode <;> rfl) fun hmode => ?_
  refine firstReject_require_cons _ _ (isEmpty_eq_decide _) fun _ => ?_
  refine firstReject_require_cons _ _ ?_ fun _ => rfl
  have hmode : s.mode = .tripped ∨ s.mode = .safeStop := of_decide_eq_true hmode
  rcases hmode with hm | hm <;> simp [hm]

theorem checkWarmReset_eq (s : State) (f : MgtFrame) :
    s.checkWarmReset f = firstFailed [(decide (s.mode ≠ .run), .refusedMode, 0),
      (decide (f.payload = []), .badLength, 0)] := by
  refine firstReject_require_cons _ _ (by cases s.mode <;> rfl) fun _ => ?_
  exact firstReject_require_cons _ _ (isEmpty_eq_decide _) fun _ => rfl

end State

/-- Settles O49: RELINK, FORCE_ZERO and RELEASE. -/
theorem portRequests : Obligations.PortRequests := by
  unfold Obligations.PortRequests
  refine ⟨fun s b f => ⟨fun h => ?_, fun h => ?_, fun h => ?_⟩, fun s b f p hp => ⟨fun h hl hs => ?_, fun h hl hs => ?_,
    fun h hl => ?_⟩⟩
  · exact State.serving_relink.answersFirstFailure h (s.checkRelink_eq f)
  · exact State.serving_forceZero.answersFirstFailure h (s.checkForceZero_eq f)
  · exact State.serving_release.answersFirstFailure h (s.checkRelease_eq f)
  · have hport := State.portOf_of_byteOr (f := f) (by omega) hp
    have hlost : s.links[p.val].state = .lost := hs
    rw [State.serving_relink.done_of_checks h (s.checkRelink_eq f) (by simp [hl, hlost, hp, Nat.le_of_lt_succ p.isLt]),
      State.plain, State.relinkPort, hport]
    rfl
  · have hport := State.portOf_of_byteOr (f := f) (by omega) hp
    have hused : ¬s.links[p.val].state = .idle := hs
    have hdone (hkind : byteOr f.payload 1 ≤ 1) :
        exec .forceZero s = .next ((s.forceZero f).answer b f { result := .done, detail := 0, payload := [] }) :=
      State.serving_forceZero.done_of_checks h (s.checkForceZero_eq f)
        (by simp [hl, hused, hkind, hp, Nat.le_of_lt_succ p.isLt])
    refine ⟨fun hkind => ?_, fun hkind => ?_⟩
    · rw [hdone (by omega), State.forceZero, hport]
      simp only [hkind, if_true]
      rfl
    · rw [hdone (by omega), State.forceZero, hport]
      simp only [hkind]
      rfl
  · have hport := State.portOf_of_byteOr (f := f) (by omega) hp
    rw [State.serving_release.done_of_checks h (s.checkRelease_eq f) (by simp [hl, hp, Nat.le_of_lt_succ p.isLt]),
      State.plain, State.releasePort, hport]
    rfl

/-- Settles O48: STOP, CLEAR and WARM_RESET. -/
theorem modeRequests : Obligations.ModeRequests := by
  unfold Obligations.ModeRequests
  intro s b f
  refine ⟨fun h => ?_, fun h => ?_, fun h => ?_, fun h hl hm => ?_, fun h hl hm => ?_, fun h hl hm => ?_⟩
  · exact State.serving_stop.answersFirstFailure h (s.checkStop_eq f)
  · exact State.serving_clear.answersFirstFailure h (s.checkClear_eq f)
  · exact State.serving_warmReset.answersFirstFailure h (s.checkWarmReset_eq f)
  · refine ⟨s.departRun .standby, ?_, rfl, ?_⟩
    · exact State.serving_stop.done_of_checks h (s.checkStop_eq f) (by simp [hl, hm])
    · rw [State.departRun_eq]
      exact ⟨rfl, rfl, rfl, rfl⟩
  · refine State.serving_clear.done_of_checks h (s.checkClear_eq f) ?_
    rcases hm with hm | ⟨hm, hline⟩
    · simp [hl, hm]
    · simp [hl, hm, hline]
  · exact State.serving_warmReset.done_of_checks h (s.checkWarmReset_eq f) (by simp [hl, hm])

end Sys2Proof.Machine

/-! ### SET_CONFIG and START (R157, R158) -/

namespace Sys2Proof.Machine

theorem firstReject_option (o : Option Reject) (cs : List (Option Reject)) :
    firstReject (o :: cs) = o.or (firstReject cs) := by
  cases o <;> rfl

theorem firstReject_singleton (o : Option Reject) : firstReject [o] = o := by
  cases o <;> rfl

theorem firstFailed_append_list (xs ys : List (Bool × Reject)) :
    firstFailed (xs ++ ys) = (firstFailed xs).or (firstFailed ys) := by
  induction xs with
  | nil => rfl
  | cons x xs ih =>
    rw [List.cons_append, firstFailed, firstFailed, ih]
    cases x.1 <;> rfl

theorem firstReject_append {o : Option Reject} {cs : List (Option Reject)} {xs ys : List (Bool × Reject)}
    (ho : o = firstFailed xs) (h : firstReject cs = firstFailed ys) :
    firstReject (o :: cs) = firstFailed (xs ++ ys) := by
  rw [firstReject_option, firstFailed_append_list, ho, h]

theorem firstFailed_cons_congr {c c' : Bool} {r : Reject} {xs ys : List (Bool × Reject)} (hc : c = c')
    (h : c' = true → firstFailed xs = firstFailed ys) : firstFailed ((c, r) :: xs) = firstFailed ((c', r) :: ys) := by
  rw [firstFailed, firstFailed, hc]
  by_cases hc' : c' = true
  · rw [if_pos hc', if_pos hc', h hc']
  · rw [if_neg hc', if_neg hc']

/-- The numbers with which failed checks are answered count the checks from 1 (R157, R158). -/
theorem firstFailure_map_zipIdx (r : Result) (cs : List Bool) (n : Nat) :
    (cs.findIdx? (fun c => !c)).map (fun i => (r, i + 1 + n)) =
      firstFailed ((cs.zipIdx n).map (fun x => (x.1, r, x.2 + 1))) := by
  induction cs generalizing n with
  | nil => rfl
  | cons c cs ih =>
    rw [List.zipIdx_cons, List.map_cons, firstFailed, ← ih]
    cases c
    · simp [List.findIdx?_cons, Nat.add_comm]
    · simp [List.findIdx?_cons, Function.comp_def]
      congr 1
      funext i
      simp
      omega

theorem firstFailure_numbered (r : Result) (cs : List Bool) :
    (firstFailure cs).map (fun d => (r, d)) = firstFailed (cs.zipIdx.map (fun x => (x.1, r, x.2 + 1))) := by
  rw [← firstFailure_map_zipIdx r cs 0, firstFailure, Option.map_map]
  rfl

theorem rebalIndex_isSome_iff {d : Tri Nat} : (rebalIndex d).isSome = true ↔ d.a ≤ 3 ∧ d.b ≤ 3 ∧ d.c ≤ 3 := by
  rw [rebalIndex]
  split <;> simp_all

theorem mem_phase_list (x : Phase) : x ∈ Phase.list := by cases x <;> simp [Phase.list]

theorem byteOr_lt (l : List Byte) (i : Nat) : byteOr l i < 256 := by
  rw [byteOr, byteAt]
  cases l[i]? with
  | none => simp
  | some b => simpa using b.isLt

theorem toNat_getD_zero (l : List Byte) (i : Nat) : (l.getD i 0).toNat = byteOr l i := by
  rw [List.getD_eq_getElem?_getD, byteOr, byteAt]
  cases l[i]? <;> rfl

/-- R174: a two-byte field, most significant byte first. -/
theorem halfAt_toNat (l : List Byte) (i : Nat) : (halfAt l i).toNat = 256 * byteOr l i + byteOr l (i + 1) := by
  have hlow := byteOr_lt l (i + 1)
  rw [halfAt, joinHalf, BitVec.toNat_append, toNat_getD_zero, toNat_getD_zero, Nat.shiftLeft_eq,
    Nat.mul_comm, ← Nat.two_pow_add_eq_or_of_lt (i := 8) hlow]

namespace State

variable {s : State}

theorem mapEntries_of_fixed {f : Port → RosterEntry → RosterEntry} (h : ∀ p, f p (s.entry p) = s.entry p) :
    s.mapEntries f = s := by
  have hroster : Vector.ofFn (fun p : Port => f p (s.entry p)) = s.roster := by
    ext i hi
    · rw [Vector.getElem_ofFn, h]
      rfl
  rw [mapEntries, hroster]

theorem Numbered.position_eq {x : Phase} (h : s.Numbered x) {p : Port} (hp : p ∈ s.phaseString x) :
    (s.entry p).position = some ((s.phaseString x).idxOf p) := by
  have hi : (s.phaseString x).idxOf p < (s.phaseString x).length := List.idxOf_lt_length_of_mem hp
  have hat := congrArg (fun l => l[(s.phaseString x).idxOf p]?) h
  simpa [stringLength, hi] using hat

/-- R18: numbered strings are left as they are by renumbering. -/
theorem renumber_of_numbered (h : ∀ x, s.Numbered x) : s.renumber = s := by
  refine mapEntries_of_fixed fun p => ?_
  cases hs : (s.entry p).inString
  · exact s.renumbered_of_not_inString p hs
  · rw [renumbered_eq, renumbered_position hs, ← (h (phaseOf p)).position_eq (mem_phaseString.mpr ⟨rfl, hs⟩)]

theorem checkNominal_eq (s : State) (n : Nat) :
    s.checkNominal n = firstFailed [(decide (s.activeCount .a ≤ n), .refusedState, 1),
      (decide (s.activeCount .b ≤ n), .refusedState, 2), (decide (s.activeCount .c ≤ n), .refusedState, 3)] :=
  firstFailure_numbered .refusedState _

theorem phaseReady_iff (s : State) (x : Phase) :
    s.phaseReady x = true ↔ (1 ≤ s.activeCount x ∧ s.activeCount x ≤ s.settings.nNom) ∧ s.Numbered x := by
  rw [phaseReady, Bool.and_eq_true, within, decide_eq_true_eq, beq_iff_eq, Numbered]

theorem bypassReady_iff (s : State) (p : Port) : s.bypassReady p = true ↔
    ∀ o, (s.entry p).standing = some o → (s.entry p).bypassOrder = o ∧ (s.entry p).contact = o.contact := by
  rw [bypassReady]
  cases (s.entry p).standing with
  | none => simp
  | some o => simp

/-- R2, R20: what the standing orders ask of a roster without FAILED or ISOLATING cells and without targets. -/
theorem bypassReady_quiet {p : Port} (hf : (s.entry p).role ≠ .failed) (hi : (s.entry p).role ≠ .isolating)
    (ht : (s.entry p).role = .spare → (s.entry p).insertionTarget = none) : s.bypassReady p = true ↔
    ((s.entry p).role = .active → (s.entry p).bypassOrder = .opened ∧ (s.entry p).contact = .opened) ∧
      ((s.entry p).role = .spare ∨ (s.entry p).role = .bypassed →
        (s.entry p).bypassOrder = .closed ∧ (s.entry p).contact = .closed) := by
  rw [bypassReady_iff]
  cases hr : (s.entry p).role with
  | absent => simp [RosterEntry.standing, hr]
  | active => simp [RosterEntry.standing, hr, Order.contact]
  | spare => simp [RosterEntry.standing, hr, ht hr, Order.contact]
  | isolating => exact absurd hr hi
  | bypassed => simp [RosterEntry.standing, hr, Order.contact]
  | failed => exact absurd hr hf

theorem inFlight?_isNone (s : State) : s.inFlight?.isNone = true ↔ ∀ a ∈ s.bau.queue.head?, a.issued = none := by
  rw [inFlight?]
  cases s.bau.queue.head? with
  | none => simp
  | some a => cases ha : a.issued <;> simp [ha]

theorem all_allPorts {c : Port → Bool} : allPorts.all c = true ↔ ∀ p, c p = true := by
  simp [List.all_eq_true, mem_allPorts]

theorem checkStart_eq (s : State) (f : MgtFrame) : s.checkStart f =
    firstFailed ((f.payload.isEmpty, .badLength, 0) ::
      s.startChecks.zipIdx.map (fun x => (x.1, .refusedState, x.2 + 1))) := by
  refine firstReject_append (xs := [(f.payload.isEmpty, .badLength, 0)])
    (ys := s.startChecks.zipIdx.map (fun x => (x.1, .refusedState, x.2 + 1))) ?_ ?_
  · rw [checkEmpty]
    cases f.payload.isEmpty <;> rfl
  · rw [firstReject_singleton, firstFailure_numbered]

/-- R18, R31: where the strings are numbered, entry to RUN leaves the roster as it is. -/
theorem startRun_of_numbered (h : ∀ x, s.Numbered x) : s.startRun = { s with
    mode := .run
    rsq := { s.rsq with stage := .align, nest := [], gapCount := 0, restartNumber := s.rsq.restartNumber + 1 }
    ctu := { s.ctu with windowStart := none } } := by
  rw [startRun, renumber_of_numbered h]
  rfl

theorem numbered_of_checkStart {f : MgtFrame} (hc : s.checkStart f = none) (x : Phase) : s.Numbered x := by
  simp only [checkStart, firstReject_eq_none, List.mem_cons, List.not_mem_nil, or_false, forall_eq_or_imp, forall_eq,
    Option.map_eq_none_iff, firstFailure_eq_none, startChecks, Bool.and_eq_true, List.all_eq_true] at hc
  obtain ⟨-, -, -, -, -, ⟨hready, -⟩, -⟩ := hc
  exact (s.phaseReady_iff x).mp (hready x (mem_phase_list x)) |>.2

end State

/-- Settles O46: the record is checked field by field and replaced whole. -/
theorem configReplacedWhole : Obligations.ConfigReplacedWhole := by
  unfold Obligations.ConfigReplacedWhole
  intro s b f h at_ word base ranges checks
  have hword (i : Nat) : (halfAt f.payload i).toNat = word i := halfAt_toNat f.payload i
  have hfields : settingsChecks (settingsAt f.payload) =
      ranges.map (fun x => decide (x.1.1 ≤ x.2 ∧ x.2 ≤ x.1.2)) := by
    simp only [settingsChecks, settingsAt, hword]
    rfl
  have hchecks : s.checkSetConfig f = firstFailed checks := by
    simp only [checks, List.cons_append, List.nil_append]
    refine firstReject_require_cons _ _ (by cases s.mode <;> rfl) fun _ => ?_
    refine firstReject_require_cons _ _ rfl fun _ => ?_
    refine firstReject_append ?_ ?_
    · rw [firstFailure_numbered, hfields, List.zipIdx_map, List.map_map]
      rfl
    · rw [firstReject_singleton, State.checkNominal_eq]
      rfl
  refine ⟨State.serving_setConfig.answersFirstFailure h hchecks, fun hall => ?_⟩
  rw [State.serving_setConfig.done_of_checks h hchecks hall, State.plain, State.setSettings, settingsAt]
  simp only [hword]
  rfl

/-- Settles O47: START's checks, and the entry to RUN with the strings as they are. -/
theorem startEntersRun : Obligations.StartEntersRun := by
  unfold Obligations.StartEntersRun
  intro s b f h d checks
  have hchecks : s.checkStart f = firstFailed checks := by
    rw [State.checkStart_eq]
    refine firstFailed_cons_congr (State.isEmpty_eq_decide _) fun _ => ?_
    refine firstFailed_cons_congr (by cases s.mode <;> rfl) fun _ => ?_
    refine firstFailed_cons_congr rfl fun _ => ?_
    refine firstFailed_cons_congr rfl fun _ => ?_
    refine firstFailed_cons_congr ?_ fun hfailed => ?_
    · rw [Bool.eq_iff_iff, State.all_allPorts, decide_eq_true_eq]
      simp
    have hfailed := of_decide_eq_true hfailed
    refine firstFailed_cons_congr ?_ fun hready => ?_
    · rw [Bool.eq_iff_iff, Bool.and_eq_true, State.all_allPorts, decide_eq_true_eq, List.all_eq_true]
      refine and_congr ?_ ?_
      · simp only [State.phaseReady_iff, and_assoc]
        rfl
      · simp [imp_iff_not_or]
    obtain ⟨-, hquiet⟩ := of_decide_eq_true hready
    refine firstFailed_cons_congr ?_ fun _ => ?_
    · rw [Bool.eq_iff_iff, State.all_allPorts, decide_eq_true_eq]
      simp [imp_iff_not_or]
    refine firstFailed_cons_congr ?_ fun _ => ?_
    · rw [Bool.eq_iff_iff, Bool.and_eq_true, State.all_allPorts, decide_eq_true_eq, State.inFlight?_isNone]
      exact and_congr_left' (forall_congr' fun p =>
        State.bypassReady_quiet (hfailed p) (hquiet p).1 (hquiet p).2)
    refine firstFailed_cons_congr ?_ fun htuple => ?_
    · rw [Bool.eq_iff_iff, decide_eq_true_eq]
      exact rebalIndex_isSome_iff
    refine firstFailed_cons_congr ?_ fun _ => rfl
    rw [Bool.eq_iff_iff, decide_eq_true_eq, State.activeLookup, rebalLookup_isSome_iff]
    exact and_iff_right (of_decide_eq_true htuple)
  refine ⟨State.serving_start.answersFirstFailure h hchecks, fun hall => ?_⟩
  rw [State.serving_start.done_of_checks h hchecks hall, State.plain, State.startRun_of_numbered]
  exact State.numbered_of_checkStart (hchecks.trans (firstFailed_eq_none hall))

end Sys2Proof.Machine

/-! ### COMMIT (R155) -/

namespace Sys2Proof.Machine

theorem GroupMarks.get_put (m : GroupMarks) (g x : Group) (on : Bool) :
    (m.put g on).get x = if x = g then on else m.get x := by
  cases g <;> cases x <;> rfl

theorem GroupMarks.get_setAll (m : GroupMarks) (gs : List Group) (on : Bool) (x : Group) :
    (m.setAll gs on).get x = if x ∈ gs then on else m.get x := by
  rw [GroupMarks.setAll]
  induction gs generalizing m with
  | nil => simp
  | cons g gs ih =>
    rw [List.foldl_cons, ih, GroupMarks.get_put]
    by_cases hx : x ∈ gs
    · simp [hx]
    · simp [hx]

theorem groupsOf_isSome (n : Nat) : (groupsOf n).isSome = decide (1 ≤ n ∧ n ≤ 4) := by
  match n with
  | 0 | 1 | 2 | 3 | 4 => rfl
  | n + 5 => simp [groupsOf]

theorem mem_groupsOf {n : Nat} {gs : List Group} (h : groupsOf n = some gs) (g : Group) :
    g ∈ gs ↔ n = 4 ∨ (n = 1 ∧ g = .screen) ∨ (n = 2 ∧ g = .rebalance) ∨ (n = 3 ∧ g = .policy) := by
  match n with
  | 0 => simp [groupsOf] at h
  | 1 | 2 | 3 => simp [groupsOf] at h; subst h; simp
  | 4 => simp [groupsOf] at h; subst h; cases g <;> simp [Group.list]
  | n + 5 => simp [groupsOf] at h

theorem exists_groupsOf {n : Nat} (h : 1 ≤ n ∧ n ≤ 4) : ∃ gs, groupsOf n = some gs :=
  Option.isSome_iff_exists.mp (by rw [groupsOf_isSome]; exact decide_eq_true h)

theorem rebalIndex_val (d : Tri Nat) : ((rebalIndex d).map (fun i => i.val)).getD 255 =
    if d.a ≤ 3 ∧ d.b ≤ 3 ∧ d.c ≤ 3 then d.a * 16 + d.b * 4 + d.c else 255 := by
  rw [rebalIndex]
  split <;> rfl

namespace State

variable {s : State}

/-- R155, R176: the groups of a COMMIT whose group code is one. -/
theorem mem_commitGroups {f : MgtFrame} (hl : 0 < f.payload.length)
    (hc : f.payload = [] ∨ (1 ≤ byteOr f.payload 0 ∧ byteOr f.payload 0 ≤ 4)) (g : Group) :
    g ∈ commitGroups f ↔ byteOr f.payload 0 = 4 ∨ (byteOr f.payload 0 = 1 ∧ g = .screen) ∨
      (byteOr f.payload 0 = 2 ∧ g = .rebalance) ∨ (byteOr f.payload 0 = 3 ∧ g = .policy) := by
  obtain ⟨gs, hgs⟩ := exists_groupsOf (hc.resolve_left (List.ne_nil_of_length_pos hl))
  have hgroups : commitGroups f = gs := by simp [commitGroups, byteAt_of_lt hl, hgs]
  rw [hgroups, mem_groupsOf hgs]

theorem exists_commitGroup {f : MgtFrame} (hl : 0 < f.payload.length)
    (hc : f.payload = [] ∨ (1 ≤ byteOr f.payload 0 ∧ byteOr f.payload 0 ≤ 4)) : ∃ g, g ∈ commitGroups f := by
  simp only [mem_commitGroups hl hc, exists_group_iff]
  have hcode := hc.resolve_left (List.ne_nil_of_length_pos hl)
  have : byteOr f.payload 0 = 1 ∨ byteOr f.payload 0 = 2 ∨ byteOr f.payload 0 = 3 ∨ byteOr f.payload 0 = 4 := by omega
  rcases this with h | h | h | h <;> simp [h]

theorem commitStore_standby (hm : s.mode = .standby) (f : MgtFrame) : s.commitStore f =
    (s.copyBanks (commitGroups f)).updMga (fun m => { m with
      periodMarks := m.periodMarks.setAll (commitGroups f) false
      recoveryMarks := m.recoveryMarks.setAll (commitGroups f) false }) := if_pos hm

/-- R155: outside STANDBY a COMMIT sets the marks of its timing. -/
theorem commitStore_marks (hm : s.mode ≠ .standby) (f : MgtFrame) : s.commitStore f =
    { s with mga := { s.mga with
        periodMarks := if byteOr f.payload 1 = 0 then s.mga.periodMarks.setAll (commitGroups f) true
                       else s.mga.periodMarks
        recoveryMarks := if byteOr f.payload 1 = 0 then s.mga.recoveryMarks
                         else s.mga.recoveryMarks.setAll (commitGroups f) true } } := by
  rw [commitStore, if_neg hm]
  by_cases ht : byteOr f.payload 1 = 0
  · simp [periodTiming, ht, updMga]
  · simp [periodTiming, ht, updMga]

theorem checkRebalance_eq (s : State) (f : MgtFrame) : s.checkRebalance f = firstFailed
    [(decide (¬(s.mode = .run ∧ byteOr f.payload 1 = 0 ∧ .rebalance ∈ commitGroups f) ∨
        s.stagedLookup.isSome = true), .refusedState, ((rebalIndex s.deficits).map (fun i => i.val)).getD 255)] := by
  have hiff : (s.mode = .run ∧ periodTiming f = true ∧ (commitGroups f).contains .rebalance = true ∧
      s.stagedLookup.isNone = true) ↔
      ¬(¬(s.mode = .run ∧ byteOr f.payload 1 = 0 ∧ .rebalance ∈ commitGroups f) ∨ s.stagedLookup.isSome = true) := by
    rw [periodTiming, beq_iff_eq, List.contains_iff_mem, Option.isNone_iff_eq_none, ← Option.not_isSome_iff_eq_none]
    tauto
  rw [checkRebalance]
  by_cases h : ¬(s.mode = .run ∧ byteOr f.payload 1 = 0 ∧ .rebalance ∈ commitGroups f) ∨ s.stagedLookup.isSome = true
  · rw [if_neg (fun hn => hiff.mp hn h), decide_eq_true h]
    rfl
  · rw [if_pos (hiff.mpr h), decide_eq_false h]
    rfl

/-- R152, R155: the checks of COMMIT as conditions, given that the group named is one. -/
theorem checkCommit_eq (s : State) (f : MgtFrame) : s.checkCommit f = firstFailed
    [(decide (f.payload = [] ∨ (1 ≤ byteOr f.payload 0 ∧ byteOr f.payload 0 ≤ 4)), .badTable, 0),
     (decide (f.payload.length = 2), .badLength, 0), (decide (byteOr f.payload 1 ≤ 1), .badValue, 0),
     (decide (¬(s.mode = .run ∧ byteOr f.payload 1 = 0 ∧ (byteOr f.payload 0 = 2 ∨ byteOr f.payload 0 = 4)) ∨
        ((s.deficits.a ≤ 3 ∧ s.deficits.b ≤ 3 ∧ s.deficits.c ≤ 3) ∧
          (s.rebalStaged[s.deficits.a * 16 + s.deficits.b * 4 + s.deficits.c]?.map RebalEntry.valid).getD false = true ∧
          s.deficits.a < s.settings.nNom ∧ s.deficits.b < s.settings.nNom ∧ s.deficits.c < s.settings.nNom)),
      .refusedState, if s.deficits.a ≤ 3 ∧ s.deficits.b ≤ 3 ∧ s.deficits.c ≤ 3 then
        s.deficits.a * 16 + s.deficits.b * 4 + s.deficits.c else 255)] := by
  refine firstReject_require_cons _ _ ?_ fun hgroup => ?_
  · cases hf : f.payload with
    | nil => simp
    | cons x xs => simp [byteAt_of_lt, groupsOf_isSome]
  refine firstReject_require_cons _ _ rfl fun hlen => ?_
  refine firstReject_require_cons _ _ rfl fun _ => ?_
  have hlen : 0 < f.payload.length := by simp at hlen; omega
  rw [firstReject_singleton, checkRebalance_eq, rebalIndex_val]
  refine firstFailed_cons_congr (decide_eq_decide.mpr ?_) fun _ => rfl
  rw [mem_commitGroups hlen (of_decide_eq_true hgroup), stagedLookup, rebalLookup_isSome_iff]
  simp [or_comm]

end State

/-- Settles O45: the marks of a COMMIT, or in STANDBY its copies. -/
theorem commitCopiesOrMarks : Obligations.CommitCopiesOrMarks := by
  unfold Obligations.CommitCopiesOrMarks
  intro s b f h code period d selects index usable checks names
  have hchecks : s.checkCommit f = firstFailed checks := s.checkCommit_eq f
  refine ⟨State.serving_commit.answersFirstFailure h hchecks, fun hall => ?_⟩
  refine ⟨s.commitStore f, State.serving_commit.done_of_checks h hchecks hall, ?_⟩
  have hcode := of_decide_eq_true (hall _ List.mem_cons_self)
  have htwo := of_decide_eq_true (hall _ (List.mem_cons_of_mem _ List.mem_cons_self))
  have hlen : 0 < f.payload.length := by omega
  have hnames (g : Group) : g ∈ State.commitGroups f ↔ names g := State.mem_commitGroups hlen hcode g
  have hsome : (!(State.commitGroups f).isEmpty) = true :=
    State.isEmpty_eq_false_iff.mpr (State.exists_commitGroup hlen hcode)
  refine ⟨fun hm => ?_, fun hm => ?_⟩
  · rw [State.commitStore_standby hm, State.copyBanks_eq, hsome]
    simp only [hnames]
    refine ⟨?_, fun i => ?_, fun g => ?_⟩
    · by_cases hscreen : names .screen
      · simp [State.updMga, hscreen, withFlagIf]
      · simp [State.updMga, hscreen, withFlagIf]
    · by_cases hscreen : names .screen
      · simp [State.updMga, hscreen]
      · simp [State.updMga, hscreen]
    · by_cases hg : names g
      · simp [State.updMga, GroupMarks.get_setAll, hnames, hg]
      · simp [State.updMga, GroupMarks.get_setAll, hnames, hg]
  · rw [State.commitStore_marks hm]
    refine ⟨rfl, fun g => ?_⟩
    by_cases hp : byteOr f.payload 1 = 0
    · by_cases hg : names g
      · simp [GroupMarks.get_setAll, hnames, hg, hp, period]
      · simp [GroupMarks.get_setAll, hnames, hg, hp, period]
    · by_cases hg : names g
      · simp [GroupMarks.get_setAll, hnames, hg, hp, period]
      · simp [GroupMarks.get_setAll, hnames, hg, hp, period]

end Sys2Proof.Machine

/-! ### WRITE_TABLE (R154) -/

namespace Sys2Proof.Machine

theorem firstFailed_map {α : Type} (l : List α) (ok : α → Bool) (g : α → Reject) :
    firstFailed (l.map (fun k => (ok k, g k))) = (l.find? (fun k => !ok k)).map g := by
  induction l with
  | nil => rfl
  | cons k l ih =>
    rw [List.map_cons, firstFailed, ih, List.find?_cons]
    cases ok k <;> rfl

theorem firstFailed_true (r : Reject) (xs : List (Bool × Reject)) : firstFailed ((true, r) :: xs) = firstFailed xs := rfl

theorem getLsbD_eq_decide (l : List Byte) (i j : Nat) :
    (l.getD i 0).getLsbD j = decide (byteOr l i / 2 ^ j % 2 = 1) := by
  rw [← toNat_getD_zero, BitVec.getLsbD, Nat.testBit_eq_decide_div_mod_eq]

theorem installed_eq (l : List Byte) (i : Nat) : (l.getD i 0).getLsbD 7 = decide (128 ≤ byteOr l i) := by
  have h := byteOr_lt l i
  rw [getLsbD_eq_decide, decide_eq_decide]
  omega

namespace State

variable {s : State} {f : MgtFrame} {t : Table}

theorem tableOf_of_pos (hl : 0 < f.payload.length) : tableOf f = Table.ofCode (byteOr f.payload 0) := by
  simp [tableOf, byteAt_of_lt hl]

theorem tableOf_nil (hl : f.payload = []) : tableOf f = none := by
  simp [tableOf, byteAt, hl]

/-- R153: the check of start and count, where the payload holds both. -/
theorem checkSpan_eq (ht : tableOf f = some t) (at_ : Nat) : checkSpan f at_ =
    require (decide (f.payload.length < at_ + 2 ∨ ((1 ≤ byteOr f.payload (at_ + 1) ∧ byteOr f.payload (at_ + 1) ≤ 8) ∧
      byteOr f.payload at_ + byteOr f.payload (at_ + 1) ≤ t.entries))) .badIndex 0 := by
  rw [checkSpan, ht]
  by_cases hl : at_ + 1 < f.payload.length
  · rw [byteAt_of_lt hl, byteAt_of_lt (Nat.lt_of_succ_lt hl)]
    have hshort : ¬f.payload.length < at_ + 2 := by omega
    simp [within, hshort]
  · have hnone : byteAt f.payload (at_ + 1) = none := by simp [byteAt]; omega
    have hshort : f.payload.length < at_ + 2 := by omega
    rw [hnone, decide_eq_true (Or.inl hshort)]
    cases byteAt f.payload at_ <;> rfl

/-- R152, R154: the checks of a write of a table that can be written, as conditions. -/
theorem checkWriteTable_eq (s : State) {n : Nat} (ht : tableOf f = some t) (hn : t.writeSize = some n) :
    s.checkWriteTable f = firstFailed
      ([(decide (t ≠ .roster ∨ s.mode = .standby), .refusedMode, 0),
        (decide (f.payload.length < 3 ∨ ((1 ≤ byteOr f.payload 2 ∧ byteOr f.payload 2 ≤ 8) ∧
          byteOr f.payload 1 + byteOr f.payload 2 ≤ t.entries)), .badIndex, 0),
        (decide (f.payload.length = 3 + byteOr f.payload 2 * n ∧ 3 + byteOr f.payload 2 * n ≤ 120), .badLength, 0)] ++
       (List.range (byteOr f.payload 2)).map (fun k => (s.writeEntryOk f t k, .badValue, k))) := by
  rw [checkWriteTable, firstReject_require]
  have htable : (f.payload.isEmpty || ((tableOf f).bind Table.writeSize).isSome) = true := by
    simp [ht, hn]
  rw [if_pos htable, ht]
  simp only [List.cons_append, List.nil_append]
  refine firstReject_require_cons _ _ ?_ fun _ => ?_
  · cases t <;> cases s.mode <;> rfl
  rw [checkSpan_eq ht]
  refine firstReject_require_cons _ _ rfl fun _ => ?_
  refine firstReject_require_cons _ _ ?_ fun _ => ?_
  · simp [hn, writeCount, beq_eq_decide]
    rfl
  rw [firstReject_singleton, firstFailed_map, checkEntries, ht]
  rfl

theorem pos_of_byteOr {l : List Byte} {i : Nat} (h : 0 < byteOr l i) : i < l.length := by
  by_contra hn
  simp [byteOr, byteAt, hn] at h

theorem tableOf_staged {c : Nat} (hc : byteOr f.payload 0 = c) (h : Table.ofCode c = some t) (h0 : c ≠ 0) :
    tableOf f = some t := by
  rw [tableOf_of_pos (pos_of_byteOr (by omega)), hc, h]

theorem isSome_ite_eq {α : Type} (c : Prop) [Decidable c] (a : α) :
    (if c then some a else none).isSome = decide c := by
  by_cases h : c
  · rw [if_pos h, decide_eq_true h]
    rfl
  · rw [if_neg h, decide_eq_false h]
    rfl

theorem screenWriteAt_isSome (l : List Byte) (i : Nat) :
    (screenWriteAt l i).isSome = decide (byteOr l i % 8 ≤ 4) := by
  have h := Nat.mod_lt (byteOr l i) (show 0 < 8 by decide)
  rw [screenWriteAt, Option.isSome_map]
  interval_cases byteOr l i % 8 <;> rfl

theorem rebalWriteAt_isSome (l : List Byte) (i : Nat) :
    (rebalWriteAt l i).isSome = decide (byteOr l i ≤ 1 ∧ (halfAt l (i + 19)).toNat ≤ 32767) := by
  exact isSome_ite_eq _ _

theorem policyWriteAt_isSome (l : List Byte) (i : Nat) :
    (policyWriteAt l i).isSome = decide (1 ≤ (halfAt l (i + 1)).toNat ∧ (halfAt l (i + 1)).toNat ≤ 4095 ∧
      1 ≤ byteOr l (i + 3) ∧ 1 ≤ byteOr l (i + 4) ∧ byteOr l (i + 4) ≤ 3) := by
  exact isSome_ite_eq _ _

theorem stagedEntry_covered {α : Type} {size i : Nat} (read : List Byte → Nat → Option α) (old : α)
    (h : byteOr f.payload 1 ≤ i) (h' : i < byteOr f.payload 1 + byteOr f.payload 2) :
    stagedEntry f size read i old =
      (read f.payload (3 + size * (i - byteOr f.payload 1))).getD old := by
  rw [stagedEntry, if_pos ⟨h, h'⟩, writeOffset, Nat.mul_comm]

theorem stagedEntry_uncovered {α : Type} {size i : Nat} (read : List Byte → Nat → Option α) (old : α)
    (h : i < byteOr f.payload 1 ∨ byteOr f.payload 1 + byteOr f.payload 2 ≤ i) :
    stagedEntry f size read i old = old := by
  rw [stagedEntry, if_neg]
  rw [writeCount]
  omega

theorem writeStore_screen (ht : tableOf f = some .screen) : s.writeStore f = { s with
    screenStaged := Vector.ofFn (fun i => stagedEntry f 5 screenWriteAt i.val s.screenStaged[i.val]) } := by
  rw [writeStore, ht]

theorem writeStore_rebalance (ht : tableOf f = some .rebalance) : s.writeStore f = { s with
    rebalStaged := Vector.ofFn (fun i => stagedEntry f 21 rebalWriteAt i.val s.rebalStaged[i.val]) } := by
  rw [writeStore, ht]

theorem writeStore_policy (ht : tableOf f = some .policy) : s.writeStore f = { s with
    policyStaged := Vector.ofFn (fun i => stagedEntry f 5 policyWriteAt i.val s.policyStaged[i.val]) } := by
  rw [writeStore, ht]

/-- R152, R154: the checks of a write of a staged bank, as conditions. -/
theorem checkWriteTable_staged (s : State) {n : Nat} (ht : tableOf f = some t) (hr : t ≠ .roster)
    (hn : t.writeSize = some n) : s.checkWriteTable f = firstFailed
      ([(decide (f.payload.length < 3 ∨ (1 ≤ byteOr f.payload 2 ∧ byteOr f.payload 2 ≤ 8 ∧
          byteOr f.payload 1 + byteOr f.payload 2 ≤ t.entries)), .badIndex, 0),
        (decide (f.payload.length = 3 + byteOr f.payload 2 * n ∧ 3 + byteOr f.payload 2 * n ≤ 120), .badLength, 0)] ++
       (List.range (byteOr f.payload 2)).map (fun k => (s.writeEntryOk f t k, .badValue, k))) := by
  rw [checkWriteTable_eq s ht hn, decide_eq_true (Or.inl hr)]
  simp only [and_assoc]
  rfl

/-- R112: a screen entry once a valid write entry is stored. -/
theorem screenWriteAt_stored {l : List Byte} {i : Nat} (h : byteOr l i % 8 ≤ 4) (old : ScreenEntry) :
    let e := (screenWriteAt l i).getD old
    e.valid = decide (128 ≤ byteOr l i) ∧
      [Action.pass, .note, .clip, .latch, .trip][byteOr l i % 8]? = some e.action ∧
      e.mask = halfAt l (i + 1) ∧ e.pattern = halfAt l (i + 3) := by
  rw [← installed_eq, screenWriteAt]
  interval_cases byteOr l i % 8 <;> exact ⟨rfl, rfl, rfl, rfl⟩

/-- R75: a rebalance entry once a valid write entry is stored. -/
theorem rebalWriteAt_stored {l : List Byte} {i : Nat} (h : byteOr l i ≤ 1 ∧ (halfAt l (i + 19)).toNat ≤ 32767)
    (old : RebalEntry) : (rebalWriteAt l i).getD old =
      { valid := decide (byteOr l i = 1)
        coef := ⟨⟨halfAt l (i + 1), halfAt l (i + 3), halfAt l (i + 5)⟩,
          ⟨halfAt l (i + 7), halfAt l (i + 9), halfAt l (i + 11)⟩,
          ⟨halfAt l (i + 13), halfAt l (i + 15), halfAt l (i + 17)⟩⟩
        ceiling := (halfAt l (i + 19)).toNat } := by
  rw [rebalWriteAt, if_pos h]
  rfl

/-- R32: a policy entry once a valid write entry is stored. -/
theorem policyWriteAt_stored {l : List Byte} {i : Nat} (h : 1 ≤ (halfAt l (i + 1)).toNat ∧
    (halfAt l (i + 1)).toNat ≤ 4095 ∧ 1 ≤ byteOr l (i + 3) ∧ 1 ≤ byteOr l (i + 4) ∧ byteOr l (i + 4) ≤ 3)
    (old : PolicyEntry) : (policyWriteAt l i).getD old =
      { restartAllowed := decide (byteOr l i % 2 = 1), spareAllowed := decide (byteOr l i / 2 % 2 = 1)
        blindAllowed := decide (byteOr l i / 4 % 2 = 1), gapBudget := (halfAt l (i + 1)).toNat
        rampPeriods := byteOr l (i + 3), maxNest := byteOr l (i + 4) } := by
  simp only [policyWriteAt, getLsbD_eq_decide]
  rw [if_pos h]
  simp

end State

/-- Settles O44: the staged banks, entry by entry. -/
theorem stagedWriteStored : Obligations.StagedWriteStored := by
  unfold Obligations.StagedWriteStored
  intro s b f h code start count size at_ word valid checks hlow hhigh
  have hstores (hchecks : s.checkWriteTable f = firstFailed checks) (hall : ∀ x ∈ checks, x.1 = true) :
      exec .writeTable s = .next ((s.writeStore f).answer b f { result := .done, detail := 0, payload := [] }) ∧
        ∀ k < count, valid k :=
    ⟨State.serving_writeTable.done_of_checks h hchecks hall, fun k hk => of_decide_eq_true
      (hall (decide (valid k), .badValue, k)
        (List.mem_append_right _ (List.mem_map.mpr ⟨k, List.mem_range.mpr hk, rfl⟩)))⟩
  have hok {ok : Nat → Bool} (hv : ∀ k, ok k = decide (valid k)) :
      (List.range count).map (fun k => (ok k, ((.badValue, k) : Reject))) =
        (List.range count).map (fun k => (decide (valid k), .badValue, k)) := by
    simp only [hv]
  obtain hc | hc | hc : code = 1 ∨ code = 2 ∨ code = 3 := by omega
  · have ht : State.tableOf f = some .screen := State.tableOf_staged hc rfl (by decide)
    have hsize : size = 5 := by simp [size, hc]
    have hchecks : s.checkWriteTable f = firstFailed checks := by
      rw [State.checkWriteTable_staged s ht (by decide) rfl, hok fun k => ?_]
      · simp only [checks, hsize, hc]
        rfl
      · rw [Bool.eq_iff_iff, decide_eq_true_eq]
        simp [State.writeEntryOk, State.screenWriteAt_isSome, State.writeOffset, valid, at_, hc, hsize, Nat.mul_comm]
    refine ⟨State.serving_writeTable.answersFirstFailure h hchecks, fun hall => ?_⟩
    obtain ⟨hexec, hvalid⟩ := hstores hchecks hall
    refine ⟨s.writeStore f, hexec, ?_⟩
    rw [State.writeStore_screen ht]
    refine ⟨rfl, fun i => ⟨fun _ hi hi' => ?_, fun hi => ?_⟩, fun i => ⟨fun hn => ?_, fun _ => rfl⟩,
      fun i => ⟨fun hn => ?_, fun _ => rfl⟩⟩
    · have hv := hvalid (i.val - start) (by omega)
      simp only [valid, hc, at_, hsize, if_true] at hv
      rw [Vector.getElem_ofFn, State.stagedEntry_covered _ _ hi hi']
      simp only [at_, word, hsize]
      exact State.screenWriteAt_stored hv _
    · rw [Vector.getElem_ofFn, State.stagedEntry_uncovered _ _ (hi.resolve_left (by simp [hc]))]
    · omega
    · omega
  · have ht : State.tableOf f = some .rebalance := State.tableOf_staged hc rfl (by decide)
    have hsize : size = 21 := by simp [size, hc]
    have hchecks : s.checkWriteTable f = firstFailed checks := by
      rw [State.checkWriteTable_staged s ht (by decide) rfl, hok fun k => ?_]
      · simp only [checks, hsize, hc]
        rfl
      · rw [Bool.eq_iff_iff, decide_eq_true_eq]
        simp [State.writeEntryOk, State.rebalWriteAt_isSome, State.writeOffset, valid, at_, word, hc, hsize,
          Nat.mul_comm]
    refine ⟨State.serving_writeTable.answersFirstFailure h hchecks, fun hall => ?_⟩
    obtain ⟨hexec, hvalid⟩ := hstores hchecks hall
    refine ⟨s.writeStore f, hexec, ?_⟩
    rw [State.writeStore_rebalance ht]
    refine ⟨rfl, fun i => ⟨fun hn => ?_, fun _ => rfl⟩, fun i => ⟨fun _ hi hi' => ?_, fun hi => ?_⟩,
      fun i => ⟨fun hn => ?_, fun _ => rfl⟩⟩
    · omega
    · have hv := hvalid (i.val - start) (by omega)
      rw [Vector.getElem_ofFn, State.stagedEntry_covered _ _ hi hi']
      simp only [at_, word, hsize]
      refine State.rebalWriteAt_stored ?_ _
      simpa [valid, hc, at_, word, hsize] using hv
    · rw [Vector.getElem_ofFn, State.stagedEntry_uncovered _ _ (hi.resolve_left (by simp [hc]))]
    · omega
  · have ht : State.tableOf f = some .policy := State.tableOf_staged hc rfl (by decide)
    have hsize : size = 5 := by simp [size, hc]
    have hchecks : s.checkWriteTable f = firstFailed checks := by
      rw [State.checkWriteTable_staged s ht (by decide) rfl, hok fun k => ?_]
      · simp only [checks, hsize, hc]
        rfl
      · rw [Bool.eq_iff_iff, decide_eq_true_eq]
        simp [State.writeEntryOk, State.policyWriteAt_isSome, State.writeOffset, valid, at_, word, hc, hsize,
          Nat.mul_comm]
    refine ⟨State.serving_writeTable.answersFirstFailure h hchecks, fun hall => ?_⟩
    obtain ⟨hexec, hvalid⟩ := hstores hchecks hall
    refine ⟨s.writeStore f, hexec, ?_⟩
    rw [State.writeStore_policy ht]
    refine ⟨rfl, fun i => ⟨fun hn => ?_, fun _ => rfl⟩, fun i => ⟨fun hn => ?_, fun _ => rfl⟩,
      fun i => ⟨fun _ hi hi' => ?_, fun hi => ?_⟩⟩
    · omega
    · omega
    · have hv := hvalid (i.val - start) (by omega)
      rw [Vector.getElem_ofFn, State.stagedEntry_covered _ _ hi hi']
      simp only [at_, word, hsize]
      refine State.policyWriteAt_stored ?_ _
      simpa [valid, hc, at_, word, hsize] using hv
    · rw [Vector.getElem_ofFn, State.stagedEntry_uncovered _ _ (hi.resolve_left (by simp [hc]))]

end Sys2Proof.Machine

/-! ### Roster writes (R19, R125, R154) -/

namespace Sys2Proof.Machine

/-- The ports that a span of table entries covers, by their offset in the span. -/
theorem covered_offsets {start count : Nat} (h : start + count ≤ 24) :
    (allPorts.filter (fun p => start ≤ p.val ∧ p.val < start + count)).map (fun p => p.val - start) =
      List.range count := by
  have hsorted : allPorts.Pairwise (fun p q => p < q) := List.pairwise_lt_finRange 24
  have hoffsets : ((allPorts.filter (fun p => start ≤ p.val ∧ p.val < start + count)).map
      (fun p => p.val - start)).Pairwise (fun a b => a < b) := by
    refine List.pairwise_map.mpr ((hsorted.filter _).imp_of_mem fun {p q} hp _ hpq => ?_)
    have hstart : start ≤ p.val := (of_decide_eq_true (List.mem_filter.mp hp).2).1
    have hlt : p.val < q.val := hpq
    omega
  refine hoffsets.eq_of_mem_iff List.pairwise_lt_range fun k => ?_
  simp only [List.mem_map, List.mem_filter, List.mem_range, decide_eq_true_eq]
  constructor
  · rintro ⟨p, ⟨-, hp, hp'⟩, rfl⟩
    omega
  · intro hk
    exact ⟨⟨start + k, by omega⟩, ⟨State.mem_allPorts _, by simp, by simpa using hk⟩, by simp⟩

namespace State

variable {s : State} {f : MgtFrame}

theorem rosterWriteFor_covered {p : Port} (h : byteOr f.payload 1 ≤ p.val)
    (h' : p.val < byteOr f.payload 1 + byteOr f.payload 2) : rosterWriteFor f p =
      some (rosterWriteAt f.payload (3 + 4 * (p.val - byteOr f.payload 1))) := by
  rw [rosterWriteFor, if_pos ⟨h, h'⟩, writeOffset, Nat.mul_comm]

theorem rosterWriteFor_uncovered {p : Port}
    (h : ¬(byteOr f.payload 1 ≤ p.val ∧ p.val < byteOr f.payload 1 + byteOr f.payload 2)) :
    rosterWriteFor f p = none := if_neg h

/-- R19: the role that a valid roster write entry gives. -/
theorem rosterWriteAt_active {l : List Byte} {i : Nat} :
    (rosterWriteAt l i).role = some .active ↔ byteOr l i % 8 = 1 := by
  have h := Nat.mod_lt (byteOr l i) (show 0 < 8 by decide)
  rw [rosterWriteAt]
  interval_cases byteOr l i % 8 <;> simp [Role.ofCode]

/-- R19: the checks of a roster write entry on its own, as conditions on its bytes. -/
theorem rosterWriteOk_iff (l : List Byte) (i : Nat) : rosterWriteOk (rosterWriteAt l i) = true ↔
    (byteOr l i % 8 = 0 ∨ byteOr l i % 8 = 1 ∨ byteOr l i % 8 = 2 ∨ byteOr l i % 8 = 4) ∧
      (128 ≤ byteOr l i ↔ byteOr l i % 8 ≠ 0) ∧ (byteOr l i % 8 = 1 → byteOr l (i + 1) ≤ 7) ∧
      byteOr l (i + 2) ≤ 7 ∧ byteOr l (i + 3) ≤ 63 := by
  have h := Nat.mod_lt (byteOr l i) (show 0 < 8 by decide)
  simp only [rosterWriteOk, rosterWriteAt, installed_eq, within, Bool.and_eq_true, decide_eq_true_eq, Nat.zero_le,
    true_and, and_assoc]
  interval_cases byteOr l i % 8 <;> simp [Role.ofCode, and_assoc]

theorem rosterWriteAt_role {l : List Byte} {i : Nat} (h : rosterWriteOk (rosterWriteAt l i) = true) (r : Role) :
    (rosterWriteAt l i).role.getD r =
      [Role.absent, .active, .spare, .isolating, .bypassed].getD (byteOr l i % 8) .failed := by
  obtain ⟨hrole, -⟩ := (rosterWriteOk_iff l i).mp h
  rw [rosterWriteAt]
  rcases hrole with hn | hn | hn | hn <;> rw [hn] <;> rfl

theorem activeAfterWrite_eq (s : State) (f : MgtFrame) (p : Port) : s.activeAfterWrite f p =
    if byteOr f.payload 1 ≤ p.val ∧ p.val < byteOr f.payload 1 + byteOr f.payload 2 then
      decide (byteOr f.payload (3 + 4 * (p.val - byteOr f.payload 1) + 0) % 8 = 1)
    else decide ((s.entry p).role = .active) := by
  rw [activeAfterWrite]
  by_cases hc : byteOr f.payload 1 ≤ p.val ∧ p.val < byteOr f.payload 1 + byteOr f.payload 2
  · rw [if_pos hc, rosterWriteFor_covered hc.1 hc.2, Bool.eq_iff_iff, decide_eq_true_eq]
    simp only [beq_iff_eq]
    exact rosterWriteAt_active
  · rw [if_neg hc, rosterWriteFor_uncovered hc]
    rfl

theorem writeRoster_activeCount_eq (hok : ∀ p, s.rosterEntryOk f p = true) (x : Phase) :
    (s.writeRoster f).activeCount x = (phasePorts x).countP (s.activeAfterWrite f) := by
  simp only [activeCount, writeRoster_active (hok _), Bool.decide_eq_true]

theorem writeRoster_link (s : State) (f : MgtFrame) (p : Port) : (s.writeRoster f).link p =
    ((rosterWriteFor f p).map fun w => writtenLink p (s.entry p).installed w.installed (s.link p)).getD (s.link p) := by
  rw [writeRoster, mapEntries_link, mapLinks_link]
  cases rosterWriteFor f p <;> rfl

theorem writeRoster_entry_covered {p : Port} (h : byteOr f.payload 1 ≤ p.val)
    (h' : p.val < byteOr f.payload 1 + byteOr f.payload 2) : (s.writeRoster f).entry p =
      writtenEntry (rosterWriteAt f.payload (3 + 4 * (p.val - byteOr f.payload 1))) (s.entry p) := by
  rw [writeRoster_entry, rosterWriteFor_covered h h']

theorem writeRoster_link_covered {p : Port} (h : byteOr f.payload 1 ≤ p.val)
    (h' : p.val < byteOr f.payload 1 + byteOr f.payload 2) : (s.writeRoster f).link p =
      writtenLink p (s.entry p).installed
        (decide (128 ≤ byteOr f.payload (3 + 4 * (p.val - byteOr f.payload 1)))) (s.link p) := by
  rw [writeRoster_link, rosterWriteFor_covered h h', Option.map_some, Option.getD_some, rosterWriteAt, installed_eq]

theorem writtenLink_same (p : Port) (b : Bool) (l : Link) : writtenLink p b b l = l := by
  cases b <;> rfl

theorem writeRoster_eq (s : State) (f : MgtFrame) : s.writeRoster f =
    { s with roster := (s.writeRoster f).roster, links := (s.writeRoster f).links } := by
  apply State.eq_of_fields <;> simp [writeRoster]

theorem rosterEntryOk_covered {p : Port} (h : byteOr f.payload 1 ≤ p.val)
    (h' : p.val < byteOr f.payload 1 + byteOr f.payload 2) : s.rosterEntryOk f p = true ↔
      rosterWriteOk (rosterWriteAt f.payload (3 + 4 * (p.val - byteOr f.payload 1))) = true ∧
      (byteOr f.payload (3 + 4 * (p.val - byteOr f.payload 1)) % 8 = 1 →
        (phasePorts (phaseOf p)).countP (s.activeAfterWrite f) ≤ s.settings.nNom) := by
  rw [rosterEntryOk, rosterWriteFor_covered h h']
  simp only [Bool.and_eq_true, Bool.or_eq_true, bne_iff_ne, ne_eq, rosterWriteAt_active, decide_eq_true_eq,
    imp_iff_not_or]

theorem rosterEntryOk_uncovered {p : Port}
    (h : ¬(byteOr f.payload 1 ≤ p.val ∧ p.val < byteOr f.payload 1 + byteOr f.payload 2)) :
    s.rosterEntryOk f p = true := by
  rw [rosterEntryOk, rosterWriteFor_uncovered h]

theorem checkWriteTable_nil (s : State) (hl : f.payload = []) : s.checkWriteTable f = some (.badLength, 0) := by
  simp [checkWriteTable, checkSpan, tableOf_nil hl, hl, firstReject, require]

theorem writeSize_ofCode {n : Nat} (h : 3 < n) : (Table.ofCode n).bind Table.writeSize = none := by
  match n with
  | 0 | 1 | 2 | 3 => omega
  | 4 | 5 | 6 | 7 | 8 | 9 | 10 => rfl
  | n + 11 => rfl

theorem checkWriteTable_unwritable (s : State) (hl : 0 < f.payload.length) (hc : 3 < byteOr f.payload 0) :
    s.checkWriteTable f = some (.badTable, 0) := by
  have hne : f.payload.isEmpty = false := by simpa using List.ne_nil_of_length_pos hl
  rw [checkWriteTable, firstReject_require, tableOf_of_pos hl, writeSize_ofCode hc, hne]
  rfl

/-- R152, R154: the checks of a roster write, as conditions, with each entry checked at its port. -/
theorem checkWriteTable_roster (s : State) (hl : 0 < f.payload.length) (hc : byteOr f.payload 0 = 0) :
    s.checkWriteTable f = firstFailed
      ([(decide (s.mode = .standby), .refusedMode, 0),
        (decide (f.payload.length < 3 ∨ (1 ≤ byteOr f.payload 2 ∧ byteOr f.payload 2 ≤ 8 ∧
          byteOr f.payload 1 + byteOr f.payload 2 ≤ 24)), .badIndex, 0),
        (decide (f.payload.length = 3 + byteOr f.payload 2 * 4), .badLength, 0)] ++
       (allPorts.filter (fun p => byteOr f.payload 1 ≤ p.val ∧ p.val < byteOr f.payload 1 + byteOr f.payload 2)).map
         (fun p => (s.rosterEntryOk f p, .badValue, p.val - byteOr f.payload 1))) := by
  have ht : tableOf f = some .roster := by rw [tableOf_of_pos hl, hc]; rfl
  rw [checkWriteTable_eq s ht rfl]
  simp only [List.cons_append, List.nil_append]
  refine firstFailed_cons_congr (by simp) fun _ => ?_
  refine firstFailed_cons_congr (by simp [and_assoc, Table.entries]) fun hspan => ?_
  have hspan := of_decide_eq_true hspan
  refine firstFailed_cons_congr (decide_eq_decide.mpr (by omega)) fun hlen => ?_
  have hlen := of_decide_eq_true hlen
  by_cases hshort : f.payload.length < 3
  · omega
  have hend : byteOr f.payload 1 + byteOr f.payload 2 ≤ 24 := (hspan.resolve_left hshort).2.2
  rw [← covered_offsets hend, List.map_map]
  congr 1
  refine List.map_congr_left fun p hp => ?_
  have hstart : byteOr f.payload 1 ≤ p.val := (of_decide_eq_true (List.mem_filter.mp hp).2).1
  have hoffset : byteOr f.payload 1 + (p.val - byteOr f.payload 1) = p.val := by omega
  simp [writeEntryOk, hoffset, p.isLt]

end State

/-- Settles O43: a roster write's checks, and the entries and the links it writes. -/
theorem rosterWriteStored : Obligations.RosterWriteStored := by
  unfold Obligations.RosterWriteStored
  intro s b f h start count at_ covers activeAfter valid checks
  have hactive (x : Phase) : (phasePorts x).countP (s.activeAfterWrite f) = activeAfter x :=
    List.countP_congr fun p _ => by rw [State.activeAfterWrite_eq]
  have hvalid (p : Port) (hp : covers p) : s.rosterEntryOk f p = true ↔ valid p := by
    rw [State.rosterEntryOk_covered hp.1 hp.2, State.rosterWriteOk_iff, hactive]
    simp only [valid, and_assoc]
    rfl
  have hchecks (hcase : f.payload = [] ∨ byteOr f.payload 0 = 0 ∨ 3 < byteOr f.payload 0) :
      s.checkWriteTable f = firstFailed checks := by
    by_cases hne : f.payload = []
    · rw [State.checkWriteTable_nil s hne]
      have hshort : ¬0 = 3 + count * 4 := by omega
      simp [checks, firstFailed, hne, hshort]
    have hpos : 0 < f.payload.length := List.length_pos_of_ne_nil hne
    rcases hcase.resolve_left hne with hcode | hcode
    · rw [State.checkWriteTable_roster s hpos hcode]
      simp only [checks, List.cons_append, List.nil_append]
      rw [decide_eq_true (p := f.payload = [] ∨ byteOr f.payload 0 = 0) (Or.inr hcode), firstFailed_true]
      refine firstFailed_cons_congr (by simp [hne]) fun _ => ?_
      refine congrArg firstFailed (congrArg₂ List.cons rfl (congrArg₂ List.cons rfl (List.map_congr_left fun p hp => ?_)))
      have hcovers : covers p := of_decide_eq_true (List.mem_filter.mp hp).2
      rw [Bool.eq_iff_iff.mpr ((hvalid p hcovers).trans decide_eq_true_iff.symm)]
    · rw [State.checkWriteTable_unwritable s hpos hcode]
      have hfirst : ¬(f.payload = [] ∨ byteOr f.payload 0 = 0) := by
        rintro (hn | hn)
        · exact hne hn
        · omega
      simp [checks, firstFailed, hfirst]
  refine ⟨fun hcase => State.serving_writeTable.answersFirstFailure h (hchecks hcase), fun hall => ?_⟩
  have hparts := hall
  simp only [checks, List.cons_append, List.nil_append, List.forall_mem_cons, decide_eq_true_eq] at hparts
  obtain ⟨htable, hmode, -, hlen, hentries⟩ := hparts
  have hne : f.payload ≠ [] := by
    intro hn
    rw [hn, List.length_nil] at hlen
    omega
  have hcode := htable.resolve_left hne
  have ht : State.tableOf f = some .roster := by rw [State.tableOf_of_pos (List.length_pos_of_ne_nil hne), hcode]; rfl
  have hstore : s.writeStore f = s.writeRoster f := by rw [State.writeStore, ht]
  have hok (p : Port) : s.rosterEntryOk f p = true := by
    by_cases hp : covers p
    · exact (hvalid p hp).mpr (of_decide_eq_true (hentries _ (List.mem_map.mpr
        ⟨p, List.mem_filter.mpr ⟨State.mem_allPorts p, decide_eq_true hp⟩, rfl⟩)))
    · exact State.rosterEntryOk_uncovered hp
  have hlink (p : Port) (hp : covers p) : (s.writeRoster f).link p =
      State.writtenLink p (s.entry p).installed (decide (128 ≤ at_ p 0)) (s.link p) :=
    State.writeRoster_link_covered hp.1 hp.2
  refine ⟨hmode.resolve_left hne, s.writeRoster f, ?_, s.writeRoster_eq f, fun p hp => ⟨?_, ?_, ?_, ?_⟩,
    fun p hp => ⟨?_, ?_⟩, fun p hp h1 => ?_⟩
  · rw [← hstore]
    exact State.serving_writeTable.done_of_checks h (hchecks (htable.imp_right Or.inl)) hall
  · have hwrite := ((State.rosterEntryOk_covered hp.1 hp.2).mp (hok p)).1
    rw [State.writeRoster_entry_covered hp.1 hp.2, State.writtenEntry, State.rosterWriteAt_role hwrite]
    simp only [State.rosterWriteAt_active]
    rw [rosterWriteAt, installed_eq]
    rfl
  · intro hi hb
    rw [hlink p hp, hi, decide_eq_true hb]
    rfl
  · intro hi hb
    rw [hlink p hp, hi, decide_eq_false (Nat.not_le.mpr hb)]
    rfl
  · intro hi
    rw [hlink p hp, hi, State.writtenLink_same]
  · rw [State.writeRoster_entry, State.rosterWriteFor_uncovered hp]
  · rw [State.writeRoster_link, State.rosterWriteFor_uncovered hp]
    rfl
  · rw [State.writeRoster_activeCount_eq hok]
    exact ((State.rosterEntryOk_covered hp.1 hp.2).mp (hok p)).2 h1

end Sys2Proof.Machine

/-! ### READ_TABLE and READ_LOG (R153, R162, R177) -/

namespace Sys2Proof.Machine

theorem u16_eq_half (n : Nat) : u16 n = half (BitVec.ofNat 16 n) := by
  simp only [half, u16, BitVec.toNat_ofNat]
  congr 1
  · apply BitVec.eq_of_toNat_eq
    simp only [BitVec.toNat_ofNat]
    omega
  · congr 1
    apply BitVec.eq_of_toNat_eq
    simp only [BitVec.toNat_ofNat]
    omega

@[simp] theorem u8_length (n : Nat) : (u8 n).length = 1 := rfl
@[simp] theorem u16_length (n : Nat) : (u16 n).length = 2 := rfl
@[simp] theorem u24_length (n : Nat) : (u24 n).length = 3 := rfl
@[simp] theorem u32_length (n : Nat) : (u32 n).length = 4 := rfl
@[simp] theorem s16_length (x : Int) : (s16 x).length = 2 := rfl
@[simp] theorem optU8_length (o : Option Nat) : (optU8 o).length = 1 := rfl
@[simp] theorem optU16_length (o : Option Nat) : (optU16 o).length = 2 := rfl
@[simp] theorem rosterBytes_length (e : RosterEntry) : (rosterBytes e).length = 14 := rfl
@[simp] theorem screenBytes_length (e : ScreenEntry) : (screenBytes e).length = 5 := rfl
@[simp] theorem rebalBytes_length (e : RebalEntry) : (rebalBytes e).length = 21 := rfl
@[simp] theorem policyBytes_length (e : PolicyEntry) : (policyBytes e).length = 5 := rfl
@[simp] theorem linkBytes_length (l : Link) : (linkBytes l).length = 16 := rfl
@[simp] theorem settingsBytes_length (c : Settings) : (settingsBytes c).length = 23 := by
  simp [settingsBytes]

@[simp] theorem nestBytes_length (c : Option Context) : (nestBytes c).length = 16 := by
  rcases c with - | c
  · rfl
  · cases hp : c.policy <;> simp [nestBytes, hp, deficitBytes]

@[simp] theorem actuationBytes_length (a : Option Actuation) : (actuationBytes a).length = 10 := by
  cases a <;> rfl

@[simp] theorem carrierBytes_length (c : CarrierPort) : (carrierBytes c).length = 14 := by
  cases he : c.lastError <;> cases hs : c.sent <;> simp [carrierBytes, planBytes, he, hs]

namespace State

variable {s : State} {f : MgtFrame} {t : Table}

/-- R177: the sizes of the headers. -/
theorem tableHeader_length (s : State) (t : Table) (bank : Nat) :
    (s.tableHeader t bank).length = t.headerSize bank := by
  cases t
  case screen =>
    rw [tableHeader, Table.headerSize]
    split <;> rfl
  all_goals rfl

/-- R153, R177: the sizes of the entries. -/
theorem tableEntry_length (s : State) (bank : Nat) {i : Nat} (hi : i < t.entries) :
    (s.tableEntry t bank i).length = t.entrySize bank := by
  cases t <;> simp only [Table.entries] at hi <;> simp only [tableEntry, Table.entrySize]
  case roster => simp [hi]
  case screen =>
    rw [dif_pos hi, screenRead]
    split <;> simp
  case rebalance => simp [hi, rebalRead]
  case policy => simp [hi, policyRead]
  case nest => simp
  case actuation => simp
  case transform => rfl
  case carrier => simp [hi]
  case link => simp [hi]
  case control => rfl
  case config => rfl

theorem tableEntries_length (s : State) (bank : Nat) {start count : Nat} (h : start + count ≤ t.entries) :
    (s.tableEntries t bank start count).length = count * t.entrySize bank := by
  rw [tableEntries, List.length_flatMap, List.map_congr_left (g := fun _ => t.entrySize bank)]
  · simp
  · intro k hk
    exact s.tableEntry_length bank (by have := List.mem_range.mp hk; omega)

theorem ofCode_isSome (n : Nat) : (Table.ofCode n).isSome = decide (n ≤ 10) := by
  match n with
  | 0 | 1 | 2 | 3 | 4 | 5 | 6 | 7 | 8 | 9 | 10 => rfl
  | n + 11 => simp [Table.ofCode]

/-- R153, R176: the tables by code, with what R177 says of their sizes. -/
theorem ofCode_facts {n : Nat} (h : Table.ofCode n = some t) (bank : Nat) :
    [Table.roster, .screen, .rebalance, .policy, .nest, .actuation, .transform, .carrier, .link, .control,
        .config][n]? = some t ∧
      t.entries = [24, 16, 64, 7, 3, 24, 1, 24, 24, 1, 1].getD n 0 ∧
      t.headerSize bank = (if n = 1 ∧ bank = 1 then 2 else [0, 0, 0, 0, 0, 6, 0, 18, 0, 0, 0].getD n 0) ∧
      t.entrySize bank = (if n = 1 ∧ bank = 1 then 7 else [14, 5, 21, 5, 16, 10, 56, 14, 16, 7, 23].getD n 0) ∧
      (t.banked = true ↔ ¬(n = 0 ∨ 3 < n)) := by
  match n with
  | 0 | 2 | 3 | 4 | 5 | 6 | 7 | 8 | 9 | 10 =>
    cases h
    refine ⟨rfl, rfl, rfl, rfl, by decide⟩
  | 1 =>
    cases h
    refine ⟨rfl, rfl, ?_, ?_, by decide⟩
    · by_cases hb : bank = 1 <;> simp [Table.headerSize, hb]
    · by_cases hb : bank = 1 <;> simp [Table.entrySize, hb]
  | n + 11 => cases h

/-- R152, R153: the checks of READ_TABLE where the payload names a table. -/
theorem checkReadTable_eq (s : State) (ht : tableOf f = some t) : s.checkReadTable f = firstFailed
    [(decide (f.payload.length < 4 ∨ (1 ≤ byteOr f.payload 3 ∧ byteOr f.payload 3 ≤ 8 ∧
        byteOr f.payload 2 + byteOr f.payload 3 ≤ t.entries)), .badIndex, 0),
     (decide (f.payload.length = 4 ∧ 4 + t.headerSize (byteOr f.payload 1) +
        byteOr f.payload 3 * t.entrySize (byteOr f.payload 1) ≤ 120), .badLength, 0),
     (!t.banked || decide (byteOr f.payload 1 ≤ 1), .badValue, 0)] := by
  rw [checkReadTable, checkTable, firstReject_require, ht]
  simp only [Option.isSome_some, Bool.or_true, if_true, checkSpan_eq ht]
  refine firstReject_require_cons _ _ (by simp only [and_assoc]) fun _ => ?_
  refine firstReject_require_cons _ _ ?_ fun _ => ?_
  · simp [readSize, beq_eq_decide]
    rfl
  · refine firstReject_require_cons _ _ ?_ fun _ => rfl
    rfl

theorem checkReadTable_nil (s : State) (hl : f.payload = []) : s.checkReadTable f = some (.badLength, 0) := by
  simp [checkReadTable, checkTable, checkSpan, tableOf_nil hl, hl, firstReject, require]

theorem checkReadTable_unknown (s : State) (hl : 0 < f.payload.length) (hc : 10 < byteOr f.payload 0) :
    s.checkReadTable f = some (.badTable, 0) := by
  have hne : f.payload.isEmpty = false := by simpa using List.ne_nil_of_length_pos hl
  have hnone : decide (byteOr f.payload 0 ≤ 10) = false := decide_eq_false (by omega)
  rw [checkReadTable, checkTable, firstReject_require, tableOf_of_pos hl, ofCode_isSome, hnone, hne]
  rfl

theorem readTablePayload_eq (s : State) (ht : tableOf f = some t) (hl : f.payload.length = 4) :
    s.readTablePayload f = f.payload ++ s.tableHeader t (byteOr f.payload 1) ++
      s.tableEntries t (byteOr f.payload 1) (byteOr f.payload 2) (byteOr f.payload 3) := by
  rw [readTablePayload, ht]
  simp only [List.take_of_length_le (Nat.le_of_eq hl)]

theorem dropWhile_split {α : Type} {p : α → Bool} {l : List α} (h : ∃ r ∈ l, p r = false) :
    ∃ pre r post, l = pre ++ r :: post ∧ p r = false ∧ (∀ q ∈ pre, p q = true) ∧ l.dropWhile p = r :: post := by
  induction l with
  | nil => simp at h
  | cons a l ih =>
    cases ha : p a
    · exact ⟨[], a, l, rfl, ha, by simp, by simp [ha]⟩
    · obtain ⟨r, hr, hpr⟩ := h
      have hmem : r ∈ l := by
        rcases List.mem_cons.mp hr with rfl | hr
        · simp [ha] at hpr
        · exact hr
      obtain ⟨pre, r, post, rfl, hr, hpre, hdrop⟩ := ih ⟨r, hmem, hpr⟩
      exact ⟨a :: pre, r, post, rfl, hr, by simpa [ha] using hpre, by simpa [ha] using hdrop⟩

theorem checkReadLog_eq (s : State) (f : MgtFrame) : s.checkReadLog f = firstFailed
    [(decide (f.payload.length < 3 ∨ (1 ≤ byteOr f.payload 2 ∧ byteOr f.payload 2 ≤ 4)), .badIndex, 0),
     (decide (f.payload.length < 2 ∨ ∃ r ∈ s.log.records, r.sequence = halfAt f.payload 0), .badIndex, 0),
     (decide (f.payload.length = 3), .badLength, 0)] := by
  refine firstReject_require_cons _ _ ?_ fun _ => ?_
  · by_cases hl : 2 < f.payload.length
    · have hlong : ¬f.payload.length < 3 := by omega
      simp [byteAt_of_lt hl, within, hlong]
    · have hnone : byteAt f.payload 2 = none := by simp [byteAt]; omega
      have hshort : f.payload.length < 3 := by omega
      simp [hnone, hshort]
  refine firstReject_require_cons _ _ ?_ fun _ => firstReject_require_cons _ _ rfl fun _ => rfl
  rw [Bool.eq_iff_iff, Bool.or_eq_true, decide_eq_true_eq, decide_eq_true_eq, List.any_eq_true]
  simp only [beq_iff_eq]

end State

theorem bit_mul (n : Nat) (m : Bool) : n * bit m = if m then n else 0 := by cases m <;> simp [bit]

theorem Role.code_eq_idxOf (r : Role) :
    r.code = [Role.absent, .active, .spare, .isolating, .bypassed, .failed].idxOf r := by cases r <;> rfl

theorem Contact.code_eq_idxOf (c : Contact) : c.code = [Contact.opened, .closed, .moving, .unknown].idxOf c := by
  cases c <;> rfl

theorem Order.code_eq (o : Order) : o.code = if o == .closed then 1 else 0 := by cases o <;> rfl

theorem Action.code_eq_idxOf (a : Action) : a.code = [Action.pass, .note, .clip, .latch, .trip].idxOf a := by
  cases a <;> rfl

theorem LinkState.code_eq_idxOf (x : LinkState) :
    x.code = [LinkState.idle, .linking, .up, .missing, .lost].idxOf x := by cases x <;> rfl

theorem Motion.code_eq_idxOf (m : Motion) :
    m.code = [Motion.braked, .proving, .accelerating, .running, .decelerating, .creeping, .levelling].idxOf m := by
  cases m <;> rfl

theorem LogKind.code_eq_idxOf (k : LogKind) : k.code = 1 + [LogKind.latchStatus, .linkLost, .alignFail, .clipEscalated,
    .tripStatus, .bypassFail, .spareOpenFail, .restartForbidden, .nestLimit, .gapExpired, .noRebalance,
    .linkLostNoBlind, .controlLost, .safetyStop, .recovered].idxOf k := by
  cases k <;> rfl

theorem lastCommand_code (c : Option Command) : (c.map Command.code).getD 3 =
    [some Command.switch, some .zero, some .block, none].idxOf c := by
  rcases c with - | c
  · rfl
  · cases c <;> rfl

theorem rosterBytes_eq (e : RosterEntry) : rosterBytes e =
    [BitVec.ofNat 8 ((if e.installed then 128 else 0) +
       [Role.absent, .active, .spare, .isolating, .bypassed, .failed].idxOf e.role),
     BitVec.ofNat 8 (e.position.getD 255), BitVec.ofNat 8 e.rank, BitVec.ofNat 8 e.linkDelay,
     BitVec.ofNat 8 ((if e.bypassOrder = .closed then 16 else 0) +
       [Contact.opened, .closed, .moving, .unknown].idxOf e.contact),
     e.lastStatus.extractLsb' 8 8, e.lastStatus.extractLsb' 0 8, BitVec.ofNat 8 (e.vdc / 256), BitVec.ofNat 8 e.vdc,
     BitVec.ofNat 8 (e.noteCount / 256), BitVec.ofNat 8 e.noteCount,
     BitVec.ofNat 8 (e.clipBucket % 16 + (if e.ineligible then 16 else 0) + (if e.deferred then 32 else 0) +
       (if e.blind then 64 else 0)),
     BitVec.ofNat 8 e.latchCount, BitVec.ofNat 8 ((e.insertionTarget.map Fin.val).getD 255)] := by
  have horder : 16 * e.bypassOrder.code = if e.bypassOrder = .closed then 16 else 0 := by
    cases e.bypassOrder <;> rfl
  simp only [rosterBytes, bit_mul, Role.code_eq_idxOf, horder, Contact.code_eq_idxOf, half_eq, u16, u8, optU8,
    List.cons_append, List.nil_append]

theorem logBytes_eq (r : LogRecord) : logBytes r =
    [r.sequence.extractLsb' 8 8, r.sequence.extractLsb' 0 8, r.stamp.extractLsb' 24 8, r.stamp.extractLsb' 16 8,
     r.stamp.extractLsb' 8 8, r.stamp.extractLsb' 0 8, BitVec.ofNat 8 ((r.port.map Fin.val).getD 255),
     BitVec.ofNat 8 r.kind.code,
     BitVec.ofNat 8 ((if r.word.isSome then 3 else 0) + (if r.deficits.isSome then 4 else 0)),
     ((r.word.map Prod.fst).getD 0).extractLsb' 8 8, ((r.word.map Prod.fst).getD 0).extractLsb' 0 8,
     BitVec.ofNat 8 ((r.word.map (fun w => w.2.val)).getD 0), BitVec.ofNat 8 r.mode.code, BitVec.ofNat 8 r.stage.code,
     r.restartNumber.extractLsb' 8 8, r.restartNumber.extractLsb' 0 8, BitVec.ofNat 8 r.nestDepth,
     BitVec.ofNat 8 (r.deficits.getD ⟨0, 0, 0⟩).a, BitVec.ofNat 8 (r.deficits.getD ⟨0, 0, 0⟩).b,
     BitVec.ofNat 8 (r.deficits.getD ⟨0, 0, 0⟩).c] := by
  simp only [logBytes, u32_toNat, half_eq, bit_mul, u8, deficitBytes, List.cons_append, List.nil_append]
  rfl

theorem optU8_byte (o : Option Byte) : optU8 (o.map (fun x => x.toNat)) = [o.getD 0xFF] := by
  cases o <;> simp [optU8, u8]

theorem nestBytes_some (c : Context) : nestBytes (some c) =
    u8 1 ++ half c.restartNumber ++ u8 c.interrupted.code ++ deficitBytes c.deficits ++ u8 c.motion.code
      ++ u16 c.gapCount ++ u8 (bit c.policy.isSome) ++ (c.policy.map policyBytes).getD (List.replicate 5 0xFF) := by
  cases hp : c.policy <;> simp [nestBytes, hp]

theorem carrierBytes_eq (c : CarrierPort) : carrierBytes c =
    optU16 c.target ++ optU16 (c.capture.map (fun q => q.raw)) ++ optU16 (c.capture.map (fun q => q.corrected))
      ++ (c.lastError.map s16).getD [0x80, 0] ++ planBytes c.sent ++ u8 c.passCount ++ u8 (bit c.aligned) := by
  cases he : c.lastError
  · rw [carrierBytes, he]
    rfl
  · rw [carrierBytes, he]
    rfl

/-- The number whose bit i is the i-th of a row of marks. -/
def bitSum (v : Nat → Bool) (n : Nat) : Nat := ((List.range n).map (fun i => bit (v i) * 2 ^ i)).sum

theorem bitSum_succ (v : Nat → Bool) (n : Nat) : bitSum v (n + 1) = bitSum v n + bit (v n) * 2 ^ n := by
  simp [bitSum, List.range_succ]

theorem bitSum_lt (v : Nat → Bool) (n : Nat) : bitSum v n < 2 ^ n := by
  induction n with
  | zero => simp [bitSum]
  | succ n ih =>
    rw [bitSum_succ, Nat.pow_succ]
    cases v n <;> simp [bit] <;> omega

theorem testBit_bitSum (v : Nat → Bool) {n i : Nat} (hi : i < n) : (bitSum v n).testBit i = v i := by
  induction n with
  | zero => omega
  | succ n ih =>
    rw [bitSum_succ]
    have hlt := bitSum_lt v n
    rcases Nat.lt_succ_iff_lt_or_eq.mp hi with hin | rfl
    · rw [← ih hin]
      cases v n
      · simp [bit]
      · simp [bit, Nat.add_comm, Nat.testBit_two_pow_add_gt hin]
    · cases hv : v i
      · simp [bit, Nat.testBit_lt_two_pow hlt]
      · simp [bit, Nat.add_comm, Nat.testBit_two_pow_add_eq, Nat.testBit_lt_two_pow hlt]

namespace State

/-- The number that the three bytes of retry marks hold (R177). -/
def retrySum (s : State) : Nat := (allPorts.map (fun p => bit s.bau.retry[p.val] * 2 ^ p.val)).sum

theorem retrySum_eq (s : State) : s.retrySum = bitSum (fun i => s.bau.retry[i]?.getD false) 24 := by
  have hrange : List.range 24 = allPorts.map (fun p => p.val) := by decide
  rw [bitSum, hrange, List.map_map, retrySum]
  exact congrArg List.sum (List.map_congr_left fun p _ => by simp)

theorem retrySum_getLsbD (s : State) (p : Port) : (BitVec.ofNat 24 s.retrySum).getLsbD p.val = s.bau.retry[p.val] := by
  rw [BitVec.getLsbD_ofNat, retrySum_eq, testBit_bitSum _ p.isLt]
  simp

theorem retryBytes_eq (s : State) : s.retryBytes = u24 (BitVec.ofNat 24 s.retrySum).toNat := by
  have hlt : s.retrySum < 2 ^ 24 := by
    rw [retrySum_eq]
    exact bitSum_lt _ 24
  rw [BitVec.toNat_ofNat, Nat.mod_eq_of_lt hlt, retryBytes, retrySum]

end State

/-- Settles O42: the two reads, and the bytes of every table. -/
theorem readsAnswerDone : Obligations.ReadsAnswerDone := by
  unfold Obligations.ReadsAnswerDone
  refine ⟨?_, ?_, ?_, ?_, ?_⟩
  · intro s b f h code bank start count entries header size checks
    have hchecks : s.checkReadTable f = firstFailed checks := by
      by_cases hne : f.payload = []
      · rw [s.checkReadTable_nil hne]
        simp [checks, firstFailed, hne]
      have hpos : 0 < f.payload.length := List.length_pos_of_ne_nil hne
      by_cases hcode : code ≤ 10
      · obtain ⟨t, ht⟩ := Option.isSome_iff_exists.mp (show (Table.ofCode code).isSome = true by
          rw [State.ofCode_isSome]; exact decide_eq_true hcode)
        obtain ⟨-, hentries, hheader, hsize, hbanked⟩ := State.ofCode_facts ht bank
        rw [s.checkReadTable_eq ((State.tableOf_of_pos hpos).trans ht)]
        simp only [checks]
        rw [decide_eq_true (p := f.payload = [] ∨ code ≤ 10) (Or.inr hcode), firstFailed_true, hentries, hheader, hsize]
        refine firstFailed_cons_congr rfl fun _ => firstFailed_cons_congr rfl fun _ => firstFailed_cons_congr ?_ fun _ => rfl
        rw [Bool.eq_iff_iff, Bool.or_eq_true, Bool.not_eq_true', ← Bool.not_eq_true, hbanked, decide_eq_true_eq,
          decide_eq_true_eq, not_not, or_assoc]
      · rw [s.checkReadTable_unknown hpos (by omega)]
        simp [checks, firstFailed, hne, hcode]
    refine ⟨State.serving_readTable.answersFirstFailure h hchecks, fun hall => ?_⟩
    have hparts := hall
    simp only [checks, List.forall_mem_cons, decide_eq_true_eq] at hparts
    obtain ⟨hcode, hspan, ⟨hlen, -⟩, -⟩ := hparts
    have hne : f.payload ≠ [] := by
      intro hn
      simp [hn] at hlen
    obtain ⟨t, hof⟩ := Option.isSome_iff_exists.mp (show (Table.ofCode code).isSome = true by
      rw [State.ofCode_isSome]; exact decide_eq_true (hcode.resolve_left hne))
    have ht : State.tableOf f = some t := (State.tableOf_of_pos (List.length_pos_of_ne_nil hne)).trans hof
    obtain ⟨hlisted, hentries, hheader, hsize, -⟩ := State.ofCode_facts hof bank
    refine ⟨t, ht, hlisted, rfl, ?_, ?_, ?_⟩
    · rw [State.serving_readTable.done_of_checks h hchecks hall, State.reading, s.readTablePayload_eq ht hlen]
      rfl
    · rw [State.tableHeader_length, hheader]
    · have hlong : ¬f.payload.length < 4 := by omega
      have hend : start + count ≤ t.entries := hentries ▸ (hspan.resolve_left hlong).2.2
      have hread := s.tableEntries_length bank hend
      rw [State.tableEntries] at hread
      rw [List.length_append, List.length_append, hread, State.tableHeader_length, hheader, hsize, hlen]
  · intro s b f h count checks
    have hchecks : s.checkReadLog f = firstFailed checks := s.checkReadLog_eq f
    refine ⟨State.serving_readLog.answersFirstFailure h hchecks, fun hall => ?_⟩
    have hparts := hall
    simp only [checks, List.forall_mem_cons, decide_eq_true_eq] at hparts
    obtain ⟨-, hheld, hlen, -⟩ := hparts
    obtain ⟨r, hr, hseq⟩ := hheld.resolve_left (by omega)
    obtain ⟨pre, r, post, hrecords, hr, hpre, hdrop⟩ :=
      State.dropWhile_split (l := s.log.records) (p := fun r => r.sequence != halfAt f.payload 0) ⟨r, hr, by simp [hseq]⟩
    refine ⟨pre, r, post, hrecords, by simpa using hr, by simpa using hpre, ?_⟩
    rw [State.serving_readLog.done_of_checks h hchecks hall, State.reading, State.readLogPayload, State.logRead, hdrop]
    rfl
  · intro s bank p e
    rw [State.tableEntry, dif_pos p.isLt, rosterBytes_eq]
  · intro r d
    rw [logBytes_eq, LogKind.code_eq_idxOf, Mode.code_eq_idxOf, Stage.code_eq_idxOf]
  · intro s bank byte half word signed four three mark policy stage motion h
    have hbyte (n : Nat) : u8 n = [byte n] := rfl
    have hhalf (x : Half) : Sys2Proof.half x = half x := half_eq x
    have hword (n : Nat) : u16 n = word n := (u16_eq_half n).trans (half_eq _)
    have hsigned (x : Int) : s16 x = signed x := half_eq _
    have hsignedfun : s16 = signed := funext hsigned
    have hfour (x : Period) : u32 x.toNat = four x := u32_toNat x
    have hthree (x : BitVec 24) : u24 x.toNat = three x := u24_toNat x
    have hmark (n : Nat) (m : Bool) : n * bit m = mark m n := bit_mul n m
    have hbit (m : Bool) : bit m = mark m 1 := rfl
    have hstage (x : Stage) : x.code = stage x := Stage.code_eq_idxOf x
    have hmotion (x : Motion) : x.code = motion x := Motion.code_eq_idxOf x
    have hpolicy (e : PolicyEntry) : policyBytes e = policy e := by
      simp only [policyBytes, hmark]
      simp only [hbyte, hword, hbit, policy, List.append_assoc]
      rfl
    clear_value policy four three signed
    refine ⟨?_, ?_, fun i => ?_, fun i => ?_, fun i => ?_, fun i => ⟨fun c hc => ?_, fun hn => ?_⟩, ?_,
      fun i => ⟨fun a ha => ?_, fun hn => ?_⟩, ?_, ?_, fun p => ?_, fun p => ?_, ?_, ?_⟩
    · intro t ht
      simp only [List.mem_cons, List.not_mem_nil, or_false] at ht
      rcases ht with rfl | rfl | rfl | rfl | rfl | rfl | rfl | rfl <;> rfl
    · rw [State.tableHeader]
      simp only [hword]
    · intro e
      rw [State.tableEntry, dif_pos i.isLt, State.screenRead]
      by_cases hb : bank = 1
      · simp only [e, hb, if_true, screenBytes, hmark, Action.code_eq_idxOf, hbyte, hhalf, hword]
      · simp only [e, hb, if_false, screenBytes, hmark, Action.code_eq_idxOf, hbyte, hhalf, hword, List.append_nil]
    · intro e c
      rw [State.tableEntry, dif_pos i.isLt, State.rebalRead]
      simp only [rebalBytes, rowBytes, hbit, hbyte, hhalf, hword, List.flatMap_cons, List.flatMap_nil, List.append_nil,
        List.append_assoc]
      rfl
    · rw [State.tableEntry, dif_pos i.isLt, State.policyRead, hpolicy]
    · rw [State.tableEntry, hc]
      have hfun : policyBytes = policy := funext hpolicy
      simp only [nestBytes_some, hbyte, hhalf, hstage, deficitBytes, hmotion, hword, hbit, hfun, List.append_assoc]
      rfl
    · rw [State.tableEntry, hn]
      rfl
    · refine ⟨BitVec.ofNat 24 s.retrySum, s.retrySum_getLsbD, ?_⟩
      rw [State.tableHeader, State.actuationHeader, State.retryBytes_eq, supplyByte, hthree]
      simp only [hmark]
      simp only [hbyte, hbit, List.append_assoc]
      simp only [SupplyHistory.effective, h, List.cons_append, List.nil_append]
    · rw [State.tableEntry, ha]
      have hissued : (a.issued.map (fun i => i.toNat)).getD 0 = (a.issued.getD 0).toNat := by
        cases a.issued <;> rfl
      simp only [actuationBytes, Order.code_eq, hmark, hissued, hfour, hbyte]
      rfl
    · rw [State.tableEntry, hn]
      refine ⟨Config.emptyActuationClosed, Config.emptyActuationEnqueued, ?_⟩
      simp only [actuationBytes, hfour, hbit, hbyte, optU8]
      rfl
    · intro r
      rw [State.tableEntry, State.transformBytes]
      simp only [rowBytes, hhalf, hbit, hbyte, optU8, hword, triS16, triU16, pairBytes, hsigned, Tri.toList,
        List.flatMap_cons, List.flatMap_nil, List.append_nil, List.append_assoc]
      rfl
    · refine ⟨s.ctu.windowStart.getD Config.absentWindowStart, fun x hx => by rw [hx]; rfl, ?_⟩
      have hcount : s.stringCells.countP (fun p => (s.cport p).aligned) =
          (List.finRange 24).countP (fun p => (s.entry p).inString && (s.cport p).aligned) := by
        rw [State.stringCells, List.countP_filter]
        exact List.countP_congr fun p _ => by rw [Bool.and_comm]
      rw [State.tableHeader, State.carrierHeader, hcount]
      simp only [hfour, hbit, hbyte, hword, triU16, Tri.toList,
        List.flatMap_cons, List.flatMap_nil, List.append_nil, List.append_assoc]
    · intro c
      refine ⟨planBytes c.sent, fun x hx => ?_, fun n down hx => ?_, fun hx => ?_, ?_⟩
      · rw [hx, planBytes, hsigned]
        rfl
      · rw [hx, planBytes, hword, hbit]
        rfl
      · rw [hx]
        exact ⟨rfl, rfl, rfl⟩
      · rw [State.tableEntry, dif_pos p.isLt, carrierBytes_eq]
        simp only [hbit, hbyte, hword, optU16, hsignedfun, List.append_assoc]
        rfl
    · intro l
      rw [State.tableEntry, dif_pos p.isLt, linkBytes, lastCommand_code, LinkState.code_eq_idxOf]
      simp only [hmark]
      simp only [hbit, hbyte, hword, hhalf, optU8_byte, List.flatMap_cons, List.flatMap_nil, List.append_nil,
        List.append_assoc]
      rfl
    · rw [State.tableEntry, State.controlBytes, hthree, hmotion]
      simp only [hmark]
      simp only [hbit, hbyte, optU8_byte, List.append_assoc]
      rfl
    · intro c
      rw [State.tableEntry, settingsBytes]
      simp only [hbyte, hword, List.flatMap_cons, List.flatMap_nil, List.append_nil, List.append_assoc]
      rfl

end Sys2Proof.Machine

/-! ### An actuation that fails (R62 to R64) -/

namespace Sys2Proof.Machine

namespace State

variable {s : State} {a : Actuation} {rest : List Actuation} {i : Period}

/-- The entry at the head of the queue is in flight and its confirmation window has closed (R62). -/
structure TimedOut (s : State) (a : Actuation) (rest : List Actuation) (i : Period) : Prop where
  queue : s.bau.queue = a :: rest
  issued : a.issued = some i
  due : s.settings.confirmLimit ≤ (s.ctu.counter - i).toNat

theorem TimedOut.inFlight (h : s.TimedOut a rest i) : s.inFlight? = some a := by
  simp [inFlight?, h.queue, h.issued]

theorem TimedOut.closed (h : s.TimedOut a rest i) : s.windowClosed = true := by
  rw [windowClosed, h.inFlight, Option.any_some, h.issued]
  exact decide_eq_true h.due

theorem TimedOut.failStep_closed (h : s.TimedOut a rest i) (hd : a.dir = .closed) :
    s.failStep = (((s.setRetry a.port true).closeFailed a.port).dropHead).retryNext a.port := by
  rw [failStep, h.inFlight]
  simp only [h.closed, hd, if_true]

theorem TimedOut.failStep_opened (h : s.TimedOut a rest i) (hd : a.dir = .opened) :
    s.failStep = ((s.setRetry a.port true).dropHead).openFailed a.port := by
  rw [failStep, h.inFlight]
  simp only [h.closed, hd, if_true]

theorem dropHead_of_queue (h : s.bau.queue = a :: rest) :
    s.dropHead = { s with bau := { s.bau with queue := rest } } := by
  rw [dropHead, updBau, h]
  rfl

/-- R63, R147: a failed closing that trips the part, before its entry leaves the queue. -/
theorem closeFailed_trips {p : Port} (hm : s.mode = .run) (hr : (s.entry p).role = .isolating)
    (hl : (s.link p).state ≠ .lost) :
    s.closeFailed p = (s.raise .bypassFail).requestTrip { cause := .bypassFail, port := some p } :=
  if_pos ⟨hr, hm, hl⟩

theorem closeFailed_raises {p : Port} (h : ¬((s.entry p).role = .isolating ∧ s.mode = .run ∧ (s.link p).state ≠ .lost)) :
    s.closeFailed p = s.raise .bypassFail := if_neg h

/-- R13: a port whose entry still stands in the queue has its closure not confirmed. -/
theorem closureOk_of_queued {p : Port} (h : s.queued p = true) : s.closureOk p = (s.entry p).blind := by
  simp [closureOk, closureConfirmed, h]

/-- R166, R172: the record of a trip. -/
theorem requestTrip_record (hm : s.mode = .run) (r : TripRequest) : (s.requestTrip r).log =
    { next := s.log.next + 1, records := keepSixteen (s.log.records ++
      [{ sequence := s.log.next, stamp := s.ctu.counter, port := r.port, kind := r.cause, word := r.word
         mode := .run, stage := s.rsq.stage, restartNumber := s.rsq.restartNumber, nestDepth := s.rsq.nest.length
         deficits := r.deficits }]) } := by
  rw [requestTrip_log hm, ← hm]
  rfl

/-- R51, R69, R166: what a trip leaves of the blocks that the failure of an entry has to do with. -/
theorem requestTrip_blocks (hm : s.mode = .run) (r : TripRequest) :
    (s.requestTrip r).mode = .tripped ∧ (s.requestTrip r).bau.retry = s.bau.retry ∧
      (s.requestTrip r).bau.queue = s.bau.queue.filter (fun x => x.dir == .closed || x.issued.isSome) ∧
      (s.requestTrip r).cli.flags = withFlag s.cli.flags .logWritten ∧
      (s.requestTrip r).ps = { s.ps with settleDone := false } ∧
      (s.requestTrip r).rsq.gapCount = s.rsq.gapCount ∧ (s.requestTrip r).rsq.stage = .normal ∧
      (s.requestTrip r).rsq.nest = [] := by
  rw [requestTrip_of_run hm, departRun_eq, writeLog_eq]
  exact ⟨rfl, rfl, rfl, rfl, rfl, rfl, rfl, rfl⟩

/-- R63: the failed closing of an ISOLATING cell that trips the part. -/
theorem TimedOut.trips (h : s.TimedOut a rest i) (hd : a.dir = .closed) (hr : (s.entry a.port).role = .isolating)
    (hm : s.mode = .run) (hl : (s.link a.port).state ≠ .lost) :
    s.failStep = ((((s.setRetry a.port true).raise .bypassFail).requestTrip
      { cause := .bypassFail, port := some a.port }).dropHead).retryNext a.port := by
  rw [h.failStep_closed hd, closeFailed_trips]
  exacts [hm, hr, hl]

theorem openFailed_spare {p : Port} (hr : (s.entry p).role = .spare) : s.openFailed p = { s with
    ps := { s.ps with selectionDue := (s.entry p).insertionTarget.isSome && s.selectionStage }
    roster := s.roster.set p.val { s.entry p with
      insertionTarget := none, ineligible := (s.entry p).ineligible || (s.link p).state != .lost }
    cli := { s.cli with flags := withFlag (withFlag s.cli.flags .spareOpenFail) .logWritten }
    log := { next := s.log.next + 1, records := keepSixteen (s.log.records ++
      [{ sequence := s.log.next, stamp := s.ctu.counter, port := some p, kind := .spareOpenFail, word := none
         mode := s.mode, stage := s.rsq.stage, restartNumber := s.rsq.restartNumber, nestDepth := s.rsq.nest.length
         deficits := none }]) } } := by
  rw [openFailed, if_pos hr]
  rfl

theorem openFailed_other {p : Port} (hr : (s.entry p).role ≠ .spare) : s.openFailed p = { s with
    cli := { s.cli with flags := withFlag s.cli.flags .bypassFail }
    ps := { s.ps with failed := if (s.entry p).role = .active ∧ s.mode ≠ .run then some p else s.ps.failed } } := by
  rw [openFailed, if_neg hr]
  by_cases ha : (s.entry p).role = .active ∧ s.mode ≠ .run
  · rw [if_pos ha, if_pos ha]
    rfl
  · rw [if_neg ha, if_neg ha]
    rfl

/-- R63, R18: what the failed closing that trips the part leaves. -/
theorem TimedOut.tripped (h : s.TimedOut a rest i) (hd : a.dir = .closed) (hr : (s.entry a.port).role = .isolating)
    (hm : s.mode = .run) (hl : (s.link a.port).state ≠ .lost) :
    s.failStep.mode = .tripped ∧ s.failStep.bau.retry = s.bau.retry.set a.port.val true ∧
      s.failStep.bau.queue = rest.filter (fun x => x.dir == .closed || x.issued.isSome) ∧
      (s.failStep.entry a.port).role = (if (s.entry a.port).blind then .bypassed else .failed) ∧
      (s.failStep.entry a.port).position = none ∧ hasFlag s.failStep.cli.flags .bypassFail = true ∧
      s.failStep.ps.failed = some a.port ∧ s.failStep.rsq.gapCount = s.rsq.gapCount ∧
      s.failStep.log = { next := s.log.next + 1, records := keepSixteen (s.log.records ++
        [{ sequence := s.log.next, stamp := s.ctu.counter, port := some a.port, kind := .bypassFail, word := none
           mode := .run, stage := s.rsq.stage, restartNumber := s.rsq.restartNumber, nestDepth := s.rsq.nest.length
           deficits := none }]) } := by
  have hraised : ((s.setRetry a.port true).raise .bypassFail).mode = .run := hm
  obtain ⟨hmode, hretry, hqueue, hflags, -, hgap, -⟩ :=
    requestTrip_blocks hraised { cause := .bypassFail, port := some a.port }
  obtain ⟨hrole, hposition⟩ :=
    requestTrip_isolating (p := a.port) hraised { cause := .bypassFail, port := some a.port } hr
  have hlog := requestTrip_record hraised { cause := .bypassFail, port := some a.port }
  have hqueued : ((s.setRetry a.port true).raise .bypassFail).queued a.port = true := by
    have hq : ((s.setRetry a.port true).raise .bypassFail).bau.queue = a :: rest := h.queue
    rw [queued, hq]
    simp
  rw [closureOk_of_queued hqueued] at hrole
  rw [h.trips hd hr hm hl]
  refine ⟨hmode, hretry, ?_, hrole, hposition, ?_, rfl, hgap, hlog⟩
  · have hdropped : (((((s.setRetry a.port true).raise .bypassFail).requestTrip
        { cause := .bypassFail, port := some a.port }).dropHead).retryNext a.port).bau.queue =
        ((a :: rest).filter (fun x => x.dir == .closed || x.issued.isSome)).drop 1 := by
      rw [← h.queue]
      exact congrArg (List.drop 1) hqueue
    rw [hdropped, List.filter_cons_of_pos (by simp [hd])]
    rfl
  · have hflag : hasFlag (((s.setRetry a.port true).raise .bypassFail).requestTrip
        { cause := .bypassFail, port := some a.port }).cli.flags .bypassFail = true := by
      rw [hflags, hasFlag_withFlag]
      simp [hasFlag_withFlag]
    exact hflag

theorem selectionStage_eq (s : State) :
    s.selectionStage = decide (s.rsq.stage = .inhibit ∨ s.rsq.stage = .isolate) := by
  rw [selectionStage]
  cases s.rsq.stage <;> rfl

end State

/-- Settles O55: the failed entry, by its direction and its cell. -/
theorem actuationFails : Obligations.ActuationFails := by
  unfold Obligations.ActuationFails
  refine ⟨fun s a rest i hreset => ?_, fun s => ?_⟩
  · intro u
    have hu : s.openPeriod.prepare .fail = u := rfl
    clear_value u
    intro hx hq hi hdue e bau ps
    have htimed : (u.taking .fail).TimedOut a rest i := ⟨hq, hi, hdue⟩
    have hexec : exec .actuationFailure s = .next (u.taking .fail).failStep := by
      rw [exec, execActuationFailure, State.unlessHeld_of_running hreset,
        State.stepEvent_of (s := s) (hu.symm ▸ hx) (hu.symm ▸ htimed.closed), hu]
      rfl
    refine ⟨fun hd hr hm hl => ?_, fun hd hr => ?_, fun hnot hopen => ?_⟩
    · obtain ⟨hmode, hretry, hqueue, hrole, hposition, hflag, hfailed, -, hlog⟩ := htimed.tripped hd hr hm hl
      exact ⟨_, hexec, hmode, hretry, hqueue, hrole, hposition, hflag, hfailed, hlog⟩
    · rw [hexec, htimed.failStep_opened hd, State.openFailed_spare (s := ((u.taking .fail).setRetry a.port true).dropHead) hr,
        State.selectionStage_eq, State.dropHead_of_queue (s := (u.taking .fail).setRetry a.port true) hq]
      rfl
    · rw [hexec]
      cases hd : a.dir
      · have hrole : e.role ≠ .spare := fun hr => hopen ⟨hd, hr⟩
        rw [htimed.failStep_opened hd, State.openFailed_other (s := ((u.taking .fail).setRetry a.port true).dropHead) hrole,
          State.dropHead_of_queue (s := (u.taking .fail).setRetry a.port true) hq]
        simp only [reduceCtorEq, false_or]
        rfl
      · rw [htimed.failStep_closed hd,
          State.closeFailed_raises (s := (u.taking .fail).setRetry a.port true) (fun h => hnot ⟨hd, h⟩),
          State.dropHead_of_queue (s := ((u.taking .fail).setRetry a.port true).raise .bypassFail) hq]
        simp only [true_or, if_true]
        rfl
  · intro t
    refine ⟨fun hdue hstage => ?_, fun hnot => ?_⟩
    · rw [State.runStep, State.selectStep, if_pos hdue]
      exact if_pos (by rw [State.selectionStage_eq]; exact decide_eq_true hstage)
    · rw [State.runStep, State.selectStep]
      by_cases hdue : s.ps.selectionDue = true
      · have hstage := hnot.resolve_left (by simp [hdue])
        rw [if_pos hdue]
        exact if_neg (by simp [State.selectionStage_eq, hstage])
      · rw [if_neg hdue]
        simp only [t, ← Bool.eq_false_iff.mpr hdue]

end Sys2Proof.Machine

/-! ### The counts that trip the part, alone and together with a failed closing (R46, R50, R144) -/

namespace Sys2Proof.Machine

namespace State

variable {s t u : State} {a : Actuation} {rest : List Actuation} {i : Period}

/-- Outside RUN no block of a period start changes the mode (R165, R166). -/
theorem modeKept_outside {m : Mode} (hm : m ≠ .run) : BlockKept (fun s => s.mode = m) := by
  constructor
  case toLatchKept =>
    refine ⟨⟨?record, ?raise, ?trip, ?effect, ?count, ?outside, ?freed⟩, ?countPort, ?cutPort⟩
    case trip => exact fun s r h => by rw [requestTrip_of_not_run (h ▸ hm)]; exact h
    all_goals
      intros
      simpa
  case gap => exact fun s hr h => absurd (h.symm.trans hr) hm
  case progress => exact fun s hr h => absurd (h.symm.trans hr) hm
  all_goals
    intros
    simpa

theorem prepare_mode_outside (hm : s.mode ≠ .run) (x : PsStep) : (s.prepare x).mode = s.mode :=
  (modeKept_outside hm).prepare rfl x

theorem openPeriod_underWay (s : State) : s.openPeriod.ps.underWay = true := by
  rw [openPeriod]
  split
  · assumption
  · rfl

theorem openPeriod_of_underWay (h : s.ps.underWay = true) : s.openPeriod = s := if_pos h

theorem stepEvent_of_not {x : PsStep} {cond : State → Bool} (hc : cond (s.openPeriod.prepare x) = false) :
    s.stepEvent x cond = s := if_neg (by simp [hc])

theorem stepEvent_eq (s : State) (x : PsStep) (cond : State → Bool) : s.stepEvent x cond = s ∨
    (cond (s.openPeriod.prepare x) = true ∧ s.stepEvent x cond = ((s.openPeriod.prepare x).taking x).runStep x) := by
  by_cases hx : x ∈ (s.openPeriod.prepare x).ps.taken
  · exact Or.inl (if_neg (by simp [hx]))
  · cases hc : cond (s.openPeriod.prepare x)
    · exact Or.inl (stepEvent_of_not hc)
    · exact Or.inr ⟨rfl, stepEvent_of hx hc⟩

/-- The sampling of the supply line, taken once at a period start. -/
theorem takeOne_supply_eq (s : State) : s.takeOne .supply = if .supply ∈ s.ps.taken then s else (s.taking .supply).supplyStep := by
  by_cases hx : .supply ∈ s.ps.taken
  · rw [if_pos hx, takeOne, if_pos (by simpa using hx)]
  · rw [if_neg hx, takeOne_of_not_taken hx]
    rfl

theorem prepare_fail (s : State) : s.prepare .fail = s.takeOne .supply := rfl

theorem prepare_sequencer_of_meet (h : s.tripsMeet = true) : s.prepare .sequencer = s := by
  have hbefore : s.before .sequencer = [] := by
    rw [before, beforeSequencer, if_neg (by simp [h])]
  rw [prepare, hbefore]
  rfl

theorem counted_of_open (h : s.rsq.nest ≠ []) :
    s.counted = { s with rsq := { s.rsq with gapCount := s.rsq.gapCount + 1 } } := by
  rw [counted, gapAfter, if_neg h]

theorem holdStep_trips (hm : s.mode = .run) (hc : s.cli.current = none)
    (hh : s.cli.holdCount + 1 = s.settings.refHoldLimit) : s.holdTrips = true ∧ s.holdStep =
      ({ s with cli := { s.cli with holdCount := s.settings.refHoldLimit } } : State).requestTrip
        { cause := .controlLost } := by
  have htrips : s.holdTrips = true := by simp [holdTrips, hm, hc, hh]
  have hafter : s.holdAfter = s.settings.refHoldLimit := by simp [holdAfter, hc, hh]
  refine ⟨htrips, ?_⟩
  rw [holdStep, if_pos htrips, hafter]
  rfl

theorem requestTrip_cli (hm : s.mode = .run) (r : TripRequest) :
    (s.requestTrip r).cli = { s.cli with flags := withFlag s.cli.flags .logWritten } := by
  rw [requestTrip_of_run hm, departRun_eq, writeLog_eq]

theorem openPeriod_lines (s : State) : s.openPeriod.lines = s.lines := by
  rw [openPeriod]
  split
  · rfl
  · simp [beginPeriod, enterPeriod, startCycle]

theorem takeOne_supply_frame (s : State) :
    (s.takeOne .supply).mode = s.mode ∧ (s.takeOne .supply).log = s.log ∧
      (s.takeOne .supply).bau.queue = s.bau.queue ∧ (s.takeOne .supply).ctu = s.ctu ∧
      (s.takeOne .supply).settings = s.settings ∧ (s.takeOne .supply).rsq = s.rsq ∧
      (s.takeOne .supply).roster = s.roster ∧ (s.takeOne .supply).links = s.links ∧
      (.fail ∈ (s.takeOne .supply).ps.taken → .fail ∈ s.ps.taken) ∧
      (s.takeOne .supply).ps.underWay = s.ps.underWay := by
  rw [takeOne_supply_eq]
  split
  · exact ⟨rfl, rfl, rfl, rfl, rfl, rfl, rfl, rfl, id, rfl⟩
  · exact ⟨rfl, rfl, rfl, rfl, rfl, rfl, rfl, rfl, fun h => by simpa [supplyStep, taking, updBau] using h, rfl⟩

/-- Outside RUN a failed closing raises its flag and makes no record (R63, R166). -/
theorem failStep_closed_outside (hm : s.mode ≠ .run) (hq : s.bau.queue = a :: rest) (hd : a.dir = .closed) :
    s.failStep.mode = s.mode ∧ s.failStep.log = s.log := by
  have hhead (x : Actuation) (hx : s.inFlight? = some x) : x.dir = .closed := by
    rw [inFlight?, hq] at hx
    obtain ⟨hx, -⟩ := Option.filter_eq_some_iff.mp hx
    cases hx
    exact hd
  rw [failStep]
  split
  · rename_i x hx
    split
    · rw [hhead x hx]
      simp only []
      rw [closeFailed_raises (s := s.setRetry x.port true) (fun h => hm h.2.1)]
      exact ⟨rfl, rfl⟩
    · exact ⟨rfl, rfl⟩
  · exact ⟨rfl, rfl⟩

theorem exec_failure_outside (hreset : s.lines.resetN = true) (hway : s.ps.underWay = true) (hm : s.mode ≠ .run)
    (hq : s.bau.queue = a :: rest) (hd : a.dir = .closed) :
    ∃ t, exec .actuationFailure s = .next t ∧ t.mode = s.mode ∧ t.log = s.log := by
  refine ⟨s.stepEvent .fail windowClosed, ?_, ?_⟩
  · rw [exec, execActuationFailure, unlessHeld_of_running hreset]
  rcases s.stepEvent_eq .fail windowClosed with he | ⟨-, he⟩
  · rw [he]
    exact ⟨rfl, rfl⟩
  · rw [he, openPeriod_of_underWay hway, prepare_fail]
    obtain ⟨hmode, hlog, hqueue, -⟩ := s.takeOne_supply_frame
    obtain ⟨hfmode, hflog⟩ := failStep_closed_outside (s := (s.takeOne .supply).taking .fail)
      (fun h => hm (hmode.symm.trans h)) (hqueue.trans hq) hd
    exact ⟨hfmode.trans hmode, hflog.trans hlog⟩

theorem TimedOut.trips_frame (h : s.TimedOut a rest i) (hd : a.dir = .closed) (hr : (s.entry a.port).role = .isolating)
    (hm : s.mode = .run) (hl : (s.link a.port).state ≠ .lost) :
    s.failStep.lines = s.lines ∧ s.failStep.ps.underWay = s.ps.underWay := by
  have hlines : (((s.setRetry a.port true).raise .bypassFail).requestTrip
      { cause := .bypassFail, port := some a.port }).lines = s.lines := by simp
  have hway : (((s.setRetry a.port true).raise .bypassFail).requestTrip
      { cause := .bypassFail, port := some a.port }).ps.underWay = s.ps.underWay := by simp
  rw [h.trips hd hr hm hl]
  exact ⟨hlines, hway⟩

theorem exec_gapExpired_outside (hreset : s.lines.resetN = true) (hway : s.ps.underWay = true) (hm : s.mode ≠ .run) :
    exec .gapExpired s = .next s := by
  rw [exec, execGapExpired, unlessHeld_of_running hreset, stepEvent_of_not]
  rw [openPeriod_of_underWay hway, gapExpires, prepare_mode_outside hm]
  simp [hm]

end State

/-- Settles O54: each count alone, and the gap count together with a failed closing in either order. -/
theorem countsTripPart : Obligations.CountsTripPart := by
  unfold Obligations.CountsTripPart
  intro s hreset
  refine ⟨?_, ?_, ?_⟩
  · intro u
    have hu : s.openPeriod.prepare .sequencer = u := rfl
    clear_value u
    intro hx hm hn hstage hbudget
    have hstep := State.sequencerStep_expires (s := u.taking .sequencer) hm hstage hn hbudget
    rw [State.counted_of_open (s := u.taking .sequencer) hn] at hstep
    have hexec : exec .gapExpired s = .next (u.taking .sequencer).sequencerStep := by
      rw [exec, execGapExpired, State.unlessHeld_of_running hreset, State.stepEvent_of (s := s) (hu.symm ▸ hx), hu]
      · rfl
      · rw [hu]
        exact (State.gapExpires_of_gapStage hm hstage).mpr ⟨hn, hbudget⟩
    refine ⟨_, hexec, hstep, ?_⟩
    rw [hstep]
    generalize hv : ({ u.taking .sequencer with
      rsq := { (u.taking .sequencer).rsq with gapCount := (u.taking .sequencer).rsq.gapCount + 1 } } : State) = v
    have hvm : v.mode = .run := hv ▸ hm
    obtain ⟨hmode, -, -, -, -, hgap, hrest, hnest⟩ := State.requestTrip_blocks hvm { cause := .gapExpired }
    have hlog := State.requestTrip_record hvm { cause := .gapExpired }
    refine ⟨hmode, hgap.trans (hv ▸ rfl), hrest, hnest, hlog.trans (hv ▸ rfl)⟩
  · intro u
    have hu : s.openPeriod.prepare .hold = u := rfl
    clear_value u
    intro hx hm hc hh
    obtain ⟨htrips, hstep⟩ := State.holdStep_trips (s := u.taking .hold) hm hc hh
    have hexec : exec .controlLost s = .next (u.taking .hold).holdStep := by
      rw [exec, execControlLost, State.unlessHeld_of_running hreset, State.stepEvent_of (s := s) (hu.symm ▸ hx), hu]
      · rfl
      · rw [hu]
        exact htrips
    refine ⟨_, hexec, hstep, ?_⟩
    rw [hstep]
    generalize hv : ({ u.taking .hold with
      cli := { (u.taking .hold).cli with holdCount := (u.taking .hold).settings.refHoldLimit } } : State) = v
    have hvm : v.mode = .run := hv ▸ hm
    obtain ⟨hmode, -, -, -, -, -, hrest, hnest⟩ := State.requestTrip_blocks hvm { cause := .controlLost }
    have hcli := State.requestTrip_cli hvm { cause := .controlLost }
    have hlog := State.requestTrip_record hvm { cause := .controlLost }
    refine ⟨hmode, ?_, hrest, hnest, hlog.trans (hv ▸ rfl)⟩
    rw [hcli, ← hv]
    rfl
  · intro u record
    have hu : s.openPeriod = u := rfl
    have hway : u.ps.underWay = true := s.openPeriod_underWay
    clear_value u
    intro a rest i hsequencer hfail hm hstage hn hbudget hq hi hdue hd hr hl
    have hgapStage : u.GapStage := Or.inr (Or.inl hstage)
    have hexpires : u.gapExpires = true := (State.gapExpires_of_gapStage hm hgapStage).mpr ⟨hn, hbudget⟩
    have hlines : u.lines = s.lines := by
      rw [← hu]
      exact s.openPeriod_lines
    refine ⟨?_, ?_⟩
    · have htimed : u.TimedOut a rest i := ⟨hq, hi, hdue⟩
      have hmeet : u.tripsMeet = true := by
        rw [State.tripsMeet, hexpires, Bool.true_and, State.failTrips, hm, (htimed.tripped hd hr hm hl).1]
        simpa using hfail
      have hprepare : s.openPeriod.prepare .sequencer = u := by rw [hu, State.prepare_sequencer_of_meet hmeet]
      have hstep := State.sequencerStep_expires (s := u.taking .sequencer) hm hgapStage hn hbudget
      rw [State.counted_of_open (s := u.taking .sequencer) hn] at hstep
      have hexec : exec .gapExpired s = .next (u.taking .sequencer).sequencerStep := by
        rw [exec, execGapExpired, State.unlessHeld_of_running hreset,
          State.stepEvent_of (s := s) (hprepare.symm ▸ hsequencer) (hprepare.symm ▸ hexpires), hprepare]
        rfl
      refine ⟨_, hexec, ?_⟩
      rw [hstep]
      generalize hv : ({ u.taking .sequencer with
        rsq := { (u.taking .sequencer).rsq with gapCount := (u.taking .sequencer).rsq.gapCount + 1 } } : State) = v
      have hvm : v.mode = .run := hv ▸ hm
      obtain ⟨hmode, -, hqueue, -, hps, hgap, -, -⟩ := State.requestTrip_blocks hvm { cause := .gapExpired }
      have hlog := State.requestTrip_record hvm { cause := .gapExpired }
      have hrecord : (v.requestTrip { cause := .gapExpired }).log =
          { next := u.log.next + 1, records := keepSixteen (u.log.records ++ [record .gapExpired none]) } := by
        rw [hlog, ← hv]
        simp only [record, ← hstage]
        rfl
      refine ⟨hmode, hgap.trans (hv ▸ rfl), hrecord, ?_⟩
      have hrunning : (v.requestTrip { cause := .gapExpired }).lines.resetN = true := by
        have hframe : (v.requestTrip { cause := .gapExpired }).lines = v.lines := by simp
        rw [hframe, ← hv]
        exact (congrArg Lines.resetN hlines).trans hreset
      have hhead : (v.requestTrip { cause := .gapExpired }).bau.queue =
          a :: rest.filter (fun x => x.dir == .closed || x.issued.isSome) := by
        have hvq : v.bau.queue = a :: rest := hv ▸ hq
        rw [hqueue, hvq, List.filter_cons_of_pos (by simp [hd])]
      have hwway : (v.requestTrip { cause := .gapExpired }).ps.underWay = true := by
        rw [hps, ← hv]
        exact hway
      obtain ⟨w, hwexec, hwmode, hwlog⟩ := State.exec_failure_outside hrunning hwway (by rw [hmode]; decide) hhead hd
      exact ⟨w, hwexec, hwmode.trans hmode, hwlog⟩
    · have hprepare : s.openPeriod.prepare .fail = u.takeOne .supply := by rw [hu, State.prepare_fail]
      obtain ⟨hsmode, hslog, hsq, hsctu, hsset, hsrsq, hsroster, hslinks, hstaken, hsway⟩ := u.takeOne_supply_frame
      have hslines : (u.takeOne .supply).lines = u.lines := by simp
      generalize u.takeOne .supply = w at *
      have hx : .fail ∉ w.ps.taken := fun h => hfail (hstaken h)
      have htimed : (w.taking .fail).TimedOut a rest i := ⟨hsq.trans hq, hi, by
        have : w.settings.confirmLimit ≤ (w.ctu.counter - i).toNat := by rwa [hsset, hsctu]
        exact this⟩
      have hexec : exec .actuationFailure s = .next (w.taking .fail).failStep := by
        rw [exec, execActuationFailure, State.unlessHeld_of_running hreset,
          State.stepEvent_of (s := s) (hprepare.symm ▸ hx) (hprepare.symm ▸ htimed.closed), hprepare]
        rfl
      have hrole : ((w.taking .fail).entry a.port).role = .isolating := by
        have he : w.entry a.port = u.entry a.port := by rw [State.entry, State.entry, hsroster]
        exact (congrArg RosterEntry.role he).trans hr
      have hlink : ((w.taking .fail).link a.port).state ≠ .lost := by
        have he : w.link a.port = u.link a.port := by rw [State.link, State.link, hslinks]
        exact fun h => hl ((congrArg Link.state he).symm.trans h)
      have hrun : (w.taking .fail).mode = .run := hsmode.trans hm
      obtain ⟨htmode, -, -, -, -, -, -, hgap, hlog⟩ := htimed.tripped hd hrole hrun hlink
      obtain ⟨htlines, htway⟩ := htimed.trips_frame hd hrole hrun hlink
      refine ⟨_, hexec, htmode, hgap.trans (congrArg Sequencer.gapCount hsrsq), ?_, ?_⟩
      · have hcounter : w.ctu.counter = u.ctu.counter := by rw [hsctu]
        rw [hlog]
        simp only [State.taking, hslog, hsrsq, hcounter, hstage]
        rfl
      · refine State.exec_gapExpired_outside ?_ (htway.trans (hsway.trans hway)) (by rw [htmode]; decide)
        exact (congrArg Lines.resetN (htlines.trans (hslines.trans hlines))).trans hreset

end Sys2Proof.Machine

/-! ### What latches and trips leave alone (R4, R36, R118, R166) -/

namespace Sys2Proof.Machine

/-- The fields of a roster entry that only roster writes, status frames, actuations and the loss of a port change. -/
def RosterEntry.record (e : RosterEntry) : Bool × Nat × Nat × Order × Contact × Half × Nat × Bool :=
  (e.installed, e.rank, e.linkDelay, e.bypassOrder, e.contact, e.lastStatus, e.vdc, e.blind)

namespace State

variable {s t u : State} {p : Port}

/-- The fields of the part that no latch, trip or word of a status frame changes. -/
def fixed (s : State) : Lines × Vector PolicyEntry 7 × Vector PolicyEntry 7 × Vector RebalEntry 64 × Vector RebalEntry 64 ×
    Transform × Vector ScreenEntry 16 × Vector ScreenEntry 16 × Agent × Settings × List Instr :=
  (s.lines, s.policyStaged, s.policyActive, s.rebalStaged, s.rebalActive, s.rtu, s.screenStaged, s.screenActive, s.mga,
    s.settings, s.pending)

/-- What a latch, a trip or the word of a status frame leaves alone, in whatever else it leads to. -/
structure Aftermath (s t : State) : Prop where
  link : ∀ q, t.link q = { s.link q with transmit := (t.link q).transmit }
  record : ∀ q, (t.entry q).record = (s.entry q).record
  flags : ∀ x, hasFlag s.cli.flags x = true → hasFlag t.cli.flags x = true
  queue : t.bau.queue ⊆ s.bau.queue
  fixed : t.fixed = s.fixed
  ctu : t.ctu = { s.ctu with windowStart := t.ctu.windowStart }
  ssc : t.ssc = { s.ssc with hits := t.ssc.hits, handed := t.ssc.handed }
  cli : t.cli = { s.cli with flags := t.cli.flags }

theorem Aftermath.refl (s : State) : Aftermath s s :=
  ⟨fun _ => rfl, fun _ => rfl, fun _ h => h, List.Subset.refl _, rfl, rfl, rfl, rfl⟩

theorem Aftermath.trans (h : Aftermath s t) (h' : Aftermath t u) : Aftermath s u where
  link q := by
    have hu := h'.link q
    rw [h.link q] at hu
    exact hu
  record q := (h'.record q).trans (h.record q)
  flags x hx := h'.flags x (h.flags x hx)
  queue := List.Subset.trans h'.queue h.queue
  fixed := h'.fixed.trans h.fixed
  ctu := by
    have hu := h'.ctu
    rw [h.ctu] at hu
    exact hu
  ssc := by
    have hu := h'.ssc
    rw [h.ssc] at hu
    exact hu
  cli := by
    have hu := h'.cli
    rw [h.cli] at hu
    exact hu

theorem aftermath_updPs (s : State) (f : PeriodProgress → PeriodProgress) : Aftermath s (s.updPs f) :=
  ⟨fun _ => rfl, fun _ => rfl, fun _ h => h, List.Subset.refl _, rfl, rfl, rfl, rfl⟩

theorem aftermath_updRsq (s : State) (f : Sequencer → Sequencer) : Aftermath s (s.updRsq f) :=
  ⟨fun _ => rfl, fun _ => rfl, fun _ h => h, List.Subset.refl _, rfl, rfl, rfl, rfl⟩

theorem aftermath_closeWindow (s : State) : Aftermath s s.closeWindow :=
  ⟨fun _ => rfl, fun _ => rfl, fun _ h => h, List.Subset.refl _, rfl, rfl, rfl, rfl⟩

theorem hasFlag_withFlag_of_hasFlag {set : BitVec 24} {f x : Flag} (h : hasFlag set x = true) :
    hasFlag (withFlag set f) x = true := by
  rw [hasFlag_withFlag, h, Bool.true_or]

theorem aftermath_raise (s : State) (f : Flag) : Aftermath s (s.raise f) :=
  ⟨fun _ => rfl, fun _ => rfl, fun _ h => hasFlag_withFlag_of_hasFlag h, List.Subset.refl _, rfl, rfl, rfl, rfl⟩

theorem aftermath_writeLog (s : State) (e : LogEntry) : Aftermath s (s.writeLog e) :=
  ⟨fun _ => rfl, fun _ => rfl, fun _ h => hasFlag_withFlag_of_hasFlag h, List.Subset.refl _, rfl, rfl, rfl, rfl⟩

theorem aftermath_mapEntries {f : Port → RosterEntry → RosterEntry}
    (hf : ∀ q, (f q (s.entry q)).record = (s.entry q).record) : Aftermath s (s.mapEntries f) where
  link q := by rw [mapEntries_link]
  record q := by rw [mapEntries_entry]; exact hf q
  flags _ h := by rwa [mapEntries_cli]
  queue := by rw [mapEntries_bau]; exact List.Subset.refl _
  fixed := by simp [State.fixed]
  ctu := by rw [mapEntries_ctu]
  ssc := by rw [mapEntries_ssc]
  cli := by rw [mapEntries_cli]

theorem aftermath_updEntry {f : RosterEntry → RosterEntry} (hf : (f (s.entry p)).record = (s.entry p).record) :
    Aftermath s (s.updEntry p f) where
  link _ := rfl
  record q := by
    rw [updEntry_entry]
    split
    · rename_i hq
      exact hq ▸ hf
    · rfl
  flags _ h := h
  queue := List.Subset.refl _
  fixed := rfl
  ctu := rfl
  ssc := rfl
  cli := rfl

theorem aftermath_urgentBlock (s : State) : Aftermath s s.urgentBlock where
  link q := by rw [urgentBlock_link]
  record q := by rw [urgentBlock_entry]
  flags _ h := by simpa using h
  queue := by simp
  fixed := by simp [State.fixed]
  ctu := by simp
  ssc := by simp
  cli := by simp

theorem aftermath_departRun (s : State) (m : Mode) : Aftermath s (s.departRun m) where
  link q := by rw [departRun_link, urgentBlock_link]
  record q := by
    obtain ⟨role, place, target, mark, he⟩ := s.departRun_entry_fields m q
    rw [he]
    rfl
  flags _ h := by rwa [departRun_eq]
  queue := by
    rw [departRun_eq]
    exact fun a ha => (List.mem_filter.mp ha).1
  fixed := by rw [departRun_eq]; rfl
  ctu := by rw [departRun_eq]
  ssc := by rw [departRun_eq]
  cli := by rw [departRun_eq]

theorem aftermath_requestTrip (s : State) (r : TripRequest) : Aftermath s (s.requestTrip r) := by
  by_cases hm : s.mode = .run
  · rw [requestTrip_of_run hm]
    exact (s.aftermath_writeLog _).trans (aftermath_departRun _ _)
  · rw [requestTrip_of_not_run hm]
    exact Aftermath.refl s

theorem aftermath_countLatch (s : State) (l : Latch) (m : Mode) (st : Stage) (depth : Nat) :
    Aftermath s (s.countLatch l m st depth) :=
  ((aftermath_updEntry rfl).trans (aftermath_raise _ _)).trans (aftermath_writeLog _ _)

theorem aftermath_makeIsolating (s : State) (p : Port) : Aftermath s (s.makeIsolating p) :=
  (aftermath_updEntry rfl).trans
    ⟨fun _ => rfl, fun _ => rfl, fun _ h => h, List.Subset.refl _, rfl, rfl, rfl, rfl⟩

theorem aftermath_push (s : State) (st : Stage) (gap : Nat) (policy : Option PolicyEntry) :
    Aftermath s (s.push st gap policy) :=
  ((((aftermath_updRsq s _).trans (aftermath_updRsq _ _)).trans (aftermath_closeWindow _)).trans
    (aftermath_updPs _ _)).trans (aftermath_urgentBlock _)

theorem aftermath_stopSettle (s : State) : Aftermath s s.stopSettle := by
  rw [stopSettle_eq]
  exact ⟨fun _ => rfl, fun _ => rfl, fun _ h => h, List.Subset.refl _, rfl, rfl, rfl, rfl⟩

theorem Selecting.aftermath (h : Selecting s t) : Aftermath s t where
  link q := by rw [h.rest]; rfl
  record q := by rw [h.entries q]; rfl
  flags _ hx := by rwa [h.rest]
  queue := by rw [h.rest]; exact List.Subset.refl _
  fixed := by rw [h.rest]; rfl
  ctu := by rw [h.rest]
  ssc := by rw [h.rest]
  cli := by rw [h.rest]

theorem aftermath_selectSpares (s : State) : Aftermath s s.selectSpares := s.selectSpares_selecting.1.aftermath

theorem aftermath_reselect (s : State) : Aftermath s s.reselect := by
  rw [reselect]
  split
  · exact s.aftermath_selectSpares
  · exact Aftermath.refl s

theorem aftermath_renumberPhase (s : State) (x : Phase) : Aftermath s (s.renumberPhase x) := by
  refine aftermath_mapEntries fun q => ?_
  split
  · rw [renumbered_eq]
    rfl
  · rfl

theorem aftermath_latchActive (s : State) (p : Port) : Aftermath s (s.latchActive p).1 := by
  have hisolating := s.aftermath_makeIsolating p
  have hpush (st gap policy) := hisolating.trans (aftermath_push _ st gap policy)
  simp only [latchActive, openEpisode, joinRecovery, pushBack, deferLatch]
  repeat' split
  all_goals first
    | with_reducible exact hisolating
    | with_reducible exact hpush _ _ _
    | with_reducible exact (hisolating.trans (aftermath_stopSettle _)).trans (aftermath_selectSpares _)
    | exact aftermath_updEntry (f := fun e => { e with deferred := true }) rfl

theorem aftermath_retireSpare (s : State) (p : Port) : Aftermath s (s.retireSpare p) := by
  have hretired : Aftermath s (s.retired p) :=
    aftermath_updEntry (f := fun e => { e with role := .bypassed, insertionTarget := none }) rfl
  rw [retireSpare_def]
  split
  · exact hretired.trans (aftermath_reselect _)
  · exact hretired

theorem aftermath_latchEffect (s : State) (p : Port) : Aftermath s (s.latchEffect p).1 := by
  simp only [latchEffect]
  repeat' split
  all_goals first
    | with_reducible exact Aftermath.refl s
    | with_reducible exact s.aftermath_latchActive p
    | with_reducible exact s.aftermath_retireSpare p

theorem aftermath_latchOutsideRun (s : State) (l : Latch) : Aftermath s (s.latchOutsideRun l) := by
  have hleft (f : RosterEntry → RosterEntry) (hf : (f (s.entry l.port)).record = (s.entry l.port).record) (m st depth) :
      Aftermath s (((s.updEntry l.port f).renumberPhase (phaseOf l.port)).countLatch l m st depth) :=
    ((aftermath_updEntry hf).trans (aftermath_renumberPhase _ _)).trans (aftermath_countLatch _ _ _ _ _)
  simp only [latchOutsideRun]
  split
  · exact hleft _ rfl _ _ _
  · exact hleft _ rfl _ _ _
  all_goals exact Aftermath.refl s

/-- Whatever leaves these fields alone goes on to do so in a latch, a trip or the loss of a cell. -/
theorem aftermath_cellKept (s : State) : CellKept (Aftermath s) where
  record _ _ h := h.trans (aftermath_updPs _ _)
  raise _ _ h := h.trans (aftermath_raise _ _)
  trip _ _ h := h.trans (aftermath_requestTrip _ _)
  effect _ _ _ h := h.trans (aftermath_latchEffect _ _)
  count _ _ _ _ _ h := h.trans (aftermath_countLatch _ _ _ _ _)
  outside _ _ _ h := h.trans (aftermath_latchOutsideRun _ _)
  freed _ _ h := (h.trans (aftermath_updEntry (f := fun e => { e with insertionTarget := none }) rfl)).trans (aftermath_reselect _)

end State

end Sys2Proof.Machine

/-! ### The loss of a port (R125, R126, R127) -/

namespace Sys2Proof.Machine

namespace State

variable {s : State} {p : Port}

/-- A port reaches its limit at this period start: of LINKING, or of missed periods (R125, R126). -/
def ReachesLimit (s : State) (p : Port) : Prop :=
  ((s.link p).state = .linking ∧ (s.link p).tagSent.isSome = true ∧ 64 ≤ (s.link p).linkingCount + 1) ∨
    (((s.link p).state = .up ∨ (s.link p).state = .missing) ∧ s.ps.answered[p.val] = false ∧
      s.settings.missLimit ≤ (s.link p).missCount + 1)

/-- The part when a port has entered LOST and before the loss acts on the cell. -/
def withLostPort (s : State) (p : Port) : State :=
  { s with
    links := s.links.set p.val { s.link p with
      state := .lost, tagSent := none
      linkingCount := if (s.link p).state = .linking then (s.link p).linkingCount + 1 else (s.link p).linkingCount
      missCount := if (s.link p).state = .linking then (s.link p).missCount else (s.link p).missCount + 1
      transmit := ((s.link p).transmit.drop (Config.framesSent p (s.link p).moments)).take 1
      moments := (s.link p).moments + 1 }
    roster := s.roster.set p.val { s.entry p with contact := .unknown }
    cli := { s.cli with flags := withFlag s.cli.flags .linkLost }
    bau := { s.bau with queue := s.bau.queue.filter (fun a => a.port != p || a.issued.isSome) }
    ps := { s.ps with judged := p :: s.ps.judged } }

@[simp] theorem withLostPort_entry (s : State) (p q : Port) :
    (s.withLostPort p).entry q = if p = q then { s.entry p with contact := .unknown } else s.entry q :=
  updEntry_entry s p (fun e => { e with contact := .unknown }) q

theorem withLostPort_link_of_ne (s : State) {p q : Port} (h : q ≠ p) : (s.withLostPort p).link q = s.link q := by
  have hval : ¬ p.val = q.val := fun hval => h (Fin.ext hval).symm
  simp [withLostPort, link, hval]

theorem withLostPort_link_self (s : State) (p : Port) :
    ((s.withLostPort p).link p).state = .lost ∧ ((s.withLostPort p).link p).tagSent = none := by
  simp [withLostPort, link]

theorem ReachesLimit.losesPort (h : s.ReachesLimit p) : s.losesPort p = true := by
  obtain ⟨hlinking, htag, hcount⟩ | ⟨hup, hanswered, hmissed⟩ := h
  · simp [State.losesPort, linkingCounts, hlinking, htag, hcount]
  · have hmiss : s.misses p = true := by obtain h | h := hup <;> simp [misses, h, hanswered]
    simp [State.losesPort, hmiss, hmissed]

theorem ReachesLimit.judgePort (h : s.ReachesLimit p) : s.judgePort p = (s.withLostPort p).loseCell p := by
  have hentered : s.judgePort p = ((s.countPort p).updPs (fun q => { q with judged := p :: q.judged })).enterLost p :=
    if_pos h.losesPort
  rw [hentered, enterLost]
  congr 1
  obtain ⟨hlinking, htag, hcount⟩ | ⟨hup, hanswered, hmissed⟩ := h
  · have hcounts : s.linkingCounts p = true := by simp [linkingCounts, hlinking, htag]
    rw [countPort, if_pos hcounts]
    simp only [withLostPort, if_pos hlinking]
    apply eq_of_fields <;>
      simp [dropWaiting, raise, updPs, updBau, updLink, updEntry, link, entry, Link.toLost, Link.cut, Link.takeSent,
        Vector.set_set]
  · have hnot : (s.link p).state ≠ .linking := by obtain h | h := hup <;> simp [h]
    have hcounts : ¬ s.linkingCounts p = true := by simp [linkingCounts, hnot]
    have hmiss : s.misses p = true := by obtain h | h := hup <;> simp [misses, h, hanswered]
    rw [countPort, if_neg hcounts, if_pos hmiss]
    simp only [withLostPort, if_neg hnot]
    apply eq_of_fields <;>
      simp [dropWaiting, raise, updPs, updBau, updLink, updEntry, link, entry, Link.toLost, Link.cut, Link.takeSent,
        Vector.set_set]

/-- What the loss of a cell leaves alone of the port just lost (R4, R60, R127). -/
theorem withLostPort_aftermath {t : State} (h : Aftermath (s.withLostPort p) t) :
    (t.link p).state = .lost ∧ (t.link p).tagSent = none ∧
      (∀ q, q ≠ p → t.link q = { s.link q with transmit := (t.link q).transmit }) ∧
      hasFlag t.cli.flags .linkLost = true ∧ (t.entry p).contact = .unknown ∧
      (t.entry p).lastStatus = (s.entry p).lastStatus ∧ (t.entry p).vdc = (s.entry p).vdc ∧
      ∀ a ∈ t.bau.queue, a.port = p → a.issued.isSome = true := by
  obtain ⟨hlost, htag⟩ := withLostPort_link_self s p
  have hrecord := h.record p
  simp only [withLostPort_entry, if_true, RosterEntry.record, Prod.mk.injEq] at hrecord
  obtain ⟨-, -, -, -, hcontact, hstatus, hvdc, -⟩ := hrecord
  refine ⟨?_, ?_, fun q hq => ?_, h.flags _ (by simp [withLostPort, hasFlag_withFlag]), hcontact, hstatus, hvdc, fun a ha hap => ?_⟩
  · rw [h.link p]
    exact hlost
  · rw [h.link p]
    exact htag
  · rw [h.link q, withLostPort_link_of_ne s hq]
  · obtain ⟨-, hkept⟩ := List.mem_filter.mp (h.queue ha)
    simpa [hap] using hkept

theorem loseIsolating_eq (s : State) (p : Port) : s.loseIsolating p =
    if s.mode = .run ∧ s.governingPolicy.blindAllowed = false then
      s.requestTrip { cause := .linkLostNoBlind, port := some p }
    else s := by
  rw [loseIsolating]
  simp

theorem deselect_of_lostPort {t : State} (h : s.withLostPort p = t) : t.deselect p =
    { t with roster := s.roster.set p.val { s.entry p with contact := .unknown, insertionTarget := none } } := by
  subst h
  simp only [deselect, updEntry, withLostPort_entry, if_true]
  simp only [withLostPort, Vector.set_set]

end State

/-- Settles O50: the lost port, and the loss by the role of its cell. -/
theorem portEntersLost : Obligations.PortEntersLost := by
  unfold Obligations.PortEntersLost
  intro p s hreset
  have hexec : exec (.portLost p) s = .next (s.portEvent p) := by
    rw [exec, execPortLost, State.unlessHeld_of_running hreset]
  rw [hexec, State.portEvent]
  generalize s.openPeriod = u
  intro u l e v freed hx hp hlimit
  have hlimit : u.ReachesLimit p := hlimit
  have hv : u.withLostPort p = v := rfl
  clear_value v
  have ht : (if !u.ps.taken.contains .links && !u.ps.judged.contains p && u.losesPort p then u.judgePort p else s) =
      v.loseCell p := by
    rw [if_pos (by simp [hx, hp, hlimit.losesPort]), hlimit.judgePort, hv]
  have hafter : State.Aftermath (u.withLostPort p) (v.loseCell p) :=
    hv ▸ (u.withLostPort p).aftermath_cellKept.loseCell (State.Aftermath.refl _) p
  obtain ⟨hstate, htag, hlinks, hflag, hcontact, hstatus, hvdc, hqueue⟩ := State.withLostPort_aftermath hafter
  have hrole : (v.entry p).role = e.role := by rw [← hv, State.withLostPort_entry, if_pos rfl]
  have htarget : (v.entry p).insertionTarget = e.insertionTarget := by rw [← hv, State.withLostPort_entry, if_pos rfl]
  have hmode : v.mode = u.mode := by rw [← hv]; rfl
  have hpolicy : v.governingPolicy = u.governingPolicy := by rw [← hv]; rfl
  have hstage : v.selectionStage = decide (u.rsq.stage = .inhibit ∨ u.rsq.stage = .isolate) := by
    rw [← hv]; exact u.selectionStage_eq
  have hfreed : v.deselect p = freed := State.deselect_of_lostPort hv
  refine ⟨_, congrArg Host.Outcome.next ht, hstate, htag, hlinks, hflag, hcontact, hstatus, hvdc, hqueue,
    fun hidle => ?_, fun hactive => ?_, fun hisolating hrun hblind => ?_, fun hisolating hnot => ?_, fun hspare hsome => ?_⟩
  · obtain h | h | h | ⟨h, hnone⟩ := hidle <;> simp [State.loseCell, *]
  · simp [State.loseCell, hrole, hactive]
  · have hloss : v.loseCell p = v.requestTrip { cause := .linkLostNoBlind, port := some p } := by
      simp [State.loseCell, hrole, hisolating, State.loseIsolating_eq, hmode, hpolicy, hrun, hblind]
    rw [hloss]
    exact ⟨rfl, by rw [State.requestTrip_of_run (hmode.trans hrun)]; rfl⟩
  · have hstays : ¬ (v.mode = .run ∧ v.governingPolicy.blindAllowed = false) := by
      rw [hmode, hpolicy]
      simpa [imp_iff_not_or] using hnot
    simp [State.loseCell, hrole, hisolating, State.loseIsolating_eq, hstays]
  · have hsel : freed.selectionStage = decide (u.rsq.stage = .inhibit ∨ u.rsq.stage = .isolate) := by
      rw [← hstage, ← hfreed]; rfl
    simp [State.loseCell, hrole, hspare, htarget, hsome, hfreed, State.reselect, hsel]

end Sys2Proof.Machine

/-! ### The words of status frames (R113 to R121) -/

namespace Sys2Proof.Machine

theorem ScreenEntry.admits_iff {e : ScreenEntry} {w : Half} : e.admits w = true ↔ w &&& e.mask = e.pattern &&& e.mask := by
  simp [ScreenEntry.admits]

namespace State

variable {s : State} {p : Port} {w : Half} {i : Fin 16}

/-- The entry that decides a word is the lowest valid one that it matches (R113). -/
theorem deciding?_eq_some (hvalid : (s.screenActive[i.val]).valid = true) (hadmits : (s.screenActive[i.val]).admits w = true)
    (hlowest : ∀ j : Fin 16, j < i → (s.screenActive[j.val]).valid = true → (s.screenActive[j.val]).admits w = false) :
    s.deciding? w = some i := by
  rw [deciding?, List.find?_eq_some_iff_getElem]
  refine ⟨by simp [hvalid, hadmits], i.val, by simp, by simp, fun j hj => ?_⟩
  have hlow := hlowest ⟨j, hj.trans i.isLt⟩ hj
  simpa [imp_iff_not_or] using hlow

theorem deciding?_eq_none (h : ∀ i : Fin 16, (s.screenActive[i.val]).valid = true → (s.screenActive[i.val]).admits w = false) :
    s.deciding? w = none := by
  rw [deciding?, List.find?_eq_none]
  intro i _
  simpa using h i

theorem screened_iff : s.screened p = true ↔ (s.entry p).role = .active ∨ (s.entry p).role = .spare := by
  simp [screened]

theorem screenWord_unscreened (h : s.screened p = false) (late : Bool) : s.screenWord p w late = s := by
  rw [screenWord, if_neg (by simp [h])]

theorem screenWord_undecided (h : s.deciding? w = none) (late : Bool) : s.screenWord p w late = s := by
  rw [screenWord, h, ite_self]

theorem screenWord_decided (hp : s.screened p = true) (h : s.deciding? w = some i) (late : Bool) :
    s.screenWord p w late = (s.countHit i).applyAction p w i (s.screenActive[i.val]).action late := by
  rw [screenWord, if_pos hp, h]

theorem clipZeroes_iff : s.clipZeroes p = true ↔
    s.mode = .run ∧ (s.rsq.stage = .normal ∨ s.rsq.stage = .resume) ∧ (s.entry p).role = .active := by
  simp [clipZeroes, and_assoc]

/-- A CLIP below clip_limit (R116). -/
theorem clipWord_below (h : (s.entry p).clipBucket + 1 < s.settings.clipLimit) (late : Bool) :
    s.clipWord p w i late = { s with
      roster := s.roster.set p.val { s.entry p with clipBucket := (s.entry p).clipBucket + 1 }
      cli := { s.cli with flags := withFlag s.cli.flags .clip }
      links := if s.mode = .run ∧ (s.rsq.stage = .normal ∨ s.rsq.stage = .resume) ∧ (s.entry p).role = .active then
          s.links.set p.val { s.link p with transmit := (s.link p).transmit ++
            [{ urgent := true, port := p, tag := s.ctu.counter.setWidth 8, command := .zero,
               order := (s.entry p).bypassOrder, pair := neutralPair s.ctu.pInForce, trim := 0, load := none }] }
        else s.links } := by
  rw [clipWord]
  simp only [if_neg (show ¬ s.settings.clipLimit ≤ (s.entry p).clipBucket + 1 from by omega), clipZeroes_iff]
  split
  · rename_i hzeroes
    rw [urgentZero, urgentFrame, updEntry_entry, if_pos rfl]
    rfl
  · rfl

end State

/-- Settles O30: by the deciding entry and its action. -/
theorem screenedWordsWithoutLatch : Obligations.ScreenedWordsWithoutLatch := by
  unfold Obligations.ScreenedWordsWithoutLatch
  intro s p w late
  refine ⟨fun hactive hspare => ?_, fun hnone => ?_, fun i hrole hvalid hagree hlowest => ?_⟩
  · exact State.screenWord_unscreened (by simp [State.screened, hactive, hspare]) late
  · refine State.screenWord_undecided (State.deciding?_eq_none fun i hvalid => ?_) late
    simpa [ScreenEntry.admits] using hnone i hvalid
  · have hdecided : s.deciding? w = some i :=
      State.deciding?_eq_some hvalid (ScreenEntry.admits_iff.mpr hagree) fun j hj hvalid => by
        simpa [ScreenEntry.admits] using hlowest j hj hvalid
    intro hits e l
    rw [State.screenWord_decided (State.screened_iff.mpr hrole) hdecided]
    refine ⟨fun hpass => ?_, fun hnote => ?_, fun hclip hbelow => ?_⟩
    · rw [hpass]
      rfl
    · rw [hnote]
      rfl
    · rw [hclip]
      exact State.clipWord_below (s := s.countHit i) hbelow late

namespace State

variable {s u v : State} {p : Port} {w : Half} {i : Fin 16}

/-- A CLIP that brings the bucket to clip_limit (R117). -/
theorem clipWord_escalated (h : s.settings.clipLimit ≤ (s.entry p).clipBucket + 1) (late : Bool) :
    s.clipWord p w i late = ({ s with
      roster := s.roster.set p.val { s.entry p with clipBucket := 0 }
      cli := { s.cli with flags := withFlag s.cli.flags .clip } } : State).handLatch
        { kind := .clipEscalated, port := p, word := some (w, i) } late := by
  rw [clipWord]
  exact if_pos h

/-- What an event between period starts makes of a part whose period start or latches are still to finish is what it
makes of the part when they have (logs 25, 38). -/
theorem between_finished (hu : u.lines.resetN = true) (hv : v.Settled) (h : u.finishPeriod = v) (f : State → State) :
    u.between f = v.between f := by
  rw [hv.between_eq, between, unlessHeld_of_running hu, h]

theorem exec_service_finished (hu : u.lines.resetN = true) (hv : v.Settled) (h : u.finishPeriod = v)
    {x : Instr × Nat × (State → MgtFrame → Option Reject)} (hx : x ∈ services) : exec x.1 u = exec x.1 v := by
  have hbetween (f : State → State) : (.next (u.between f) : Host.Outcome State Fault Refusal) = .next (v.between f) :=
    congrArg _ (between_finished hu hv h f)
  simp only [services, List.mem_cons, List.not_mem_nil, or_false] at hx
  rcases hx with rfl | rfl | rfl | rfl | rfl | rfl | rfl | rfl | rfl | rfl | rfl | rfl <;> exact hbetween _

/-- The commands that are no step of a period start, but for the status frames and the pins. -/
theorem exec_finished (hu : u.lines.resetN = true) (hv : v.Settled) (h : u.finishPeriod = v) {c : Instr}
    (hc : (∃ f, c = .refFrame f) ∨ (∃ f, c = .mgtFrame f) ∨ (∃ bytes, c = .badDownstreamFrame bytes) ∨
      (∃ x ∈ services, c = x.1) ∨ c = .unknownRequest ∨ c = .replySent ∨ c = .warmResetEffect) :
    exec c u = exec c v := by
  have hbetween (f : State → State) : (.next (u.between f) : Host.Outcome State Fault Refusal) = .next (v.between f) :=
    congrArg _ (between_finished hu hv h f)
  rcases hc with ⟨f, rfl⟩ | ⟨f, rfl⟩ | ⟨bytes, rfl⟩ | ⟨x, hx, rfl⟩ | rfl | rfl | rfl
  case inr.inr.inr.inl => exact exec_service_finished hu hv h hx
  all_goals exact hbetween _

theorem betweenFrames_finished (hu : u.lines.resetN = true) (hv : v.Settled) (h : u.finishPeriod = v) {late : Bool}
    (hlate : late = true → u.ps.underWay = true) (f : State → State) : u.betweenFrames late f = v.betweenFrames late f := by
  have hnot : ¬ (late = true ∧ u.ps.underWay = false) := fun ⟨hl, hn⟩ => by simp [hlate hl] at hn
  rw [betweenFrames, betweenFrames, unlessHeld_of_running hu, unlessHeld_of_running hv.running, if_neg hnot, h,
    hv.finishPeriod_eq, ite_self]

theorem exec_safetyStopFall_finished (hu : u.lines.resetN = true) (hv : v.Settled) (h : u.finishPeriod = v)
    (hlines : v.lines = u.lines) (hline : u.lines.safetyStopN = true) :
    exec .safetyStopFall u = exec .safetyStopFall v := by
  rw [exec, execSafetyStopFall, exec, execSafetyStopFall, safetyFall, safetyFall, hlines, hu, hline, h, hv.finishPeriod_eq]
  rfl

theorem exec_safetyStopRise_finished (hu : u.lines.resetN = true) (hv : v.Settled) (h : u.finishPeriod = v)
    (hlines : v.lines = u.lines) (hline : u.lines.safetyStopN = false) :
    exec .safetyStopRise u = exec .safetyStopRise v := by
  rw [exec, execSafetyStopRise, exec, execSafetyStopRise, safetyRise, safetyRise, hlines, hu, hline, h, hv.finishPeriod_eq]
  rfl

theorem Settled.withHanded_finishPeriod (h : s.Settled) (l : List Latch) :
    (s.withHanded l).finishPeriod = l.foldl takeLatch s := by
  rw [finishPeriod, if_neg (show ¬ (s.withHanded l).ps.underWay = true by simp [withHanded, h.between]),
    takeHanded_withHanded, s.withHanded_nil h.taken]

theorem Settled.foldl_takeLatch (h : s.Settled) (l : List Latch) : (l.foldl takeLatch s).Settled where
  running := by simp [h.running]
  between := by simp [h.between]
  taken := by simp [h.taken]

/-- A period start with latches handed over is the one without them, and they are taken after it (R45, log 38). -/
theorem Settled.periodStart_withHanded (h : s.Settled) (l : List Latch) (ok : Bool) (order : List PsStep) :
    (s.withHanded l).periodStart ok order = l.foldl takeLatch (s.periodStart ok order) := by
  have hstart (l : List Latch) : (s.withHanded l).periodStart ok order =
      l.foldl takeLatch (((defaultOrder.foldl takeStep (order.foldl takeStep (s.openPeriod.setSupply ok))).updPs
        (fun _ => PeriodProgress.none)).withHanded []) := by
    simp only [periodStart, completePeriod, openPeriod_withHanded, setSupply_withHanded, foldl_takeStep_withHanded,
      updPs_withHanded, takeHanded_withHanded]
  have hnone := hstart []
  rw [s.withHanded_nil h.taken, List.foldl_nil] at hnone
  rw [hstart, hnone]

end State

/-- Settles O31: by the deciding entry and its action, and by the latches handed over being taken from the state without
them. -/
theorem screenedWordsThatRemoveOrTrip : Obligations.ScreenedWordsThatRemoveOrTrip := by
  unfold Obligations.ScreenedWordsThatRemoveOrTrip
  refine ⟨fun s p w i late hrole hdecided => ?_, fun handed s hs => ?_, fun s l => State.takeLatch_isolating⟩
  · intro u e hand
    rw [State.screenWord_decided (State.screened_iff.mpr hrole) hdecided]
    refine ⟨fun hlatch => ?_, fun hclip hfull => ?_, fun htrip hrun => ?_, fun htrip hout => ?_⟩
    · rw [hlatch]
      rfl
    · rw [hclip]
      exact State.clipWord_escalated (s := s.countHit i) hfull late
    · rw [htrip]
      exact if_pos hrun
    · rw [htrip]
      exact if_neg hout
  · intro u v
    have hrunning : u.lines.resetN = true := hs.running
    have hv : v.Settled := hs.foldl_takeLatch handed
    have hfinish : u.finishPeriod = v := hs.withHanded_finishPeriod handed
    have hlines : v.lines = u.lines := by simp [v, u]
    refine ⟨fun ok order => ⟨s.periodStart ok order, ?_, ?_⟩, fun c hc => ?_, fun p bytes => ?_, fun hsome hempty => ?_⟩
    · rw [exec, execPeriodStart, State.unlessHeld_of_running hs.running]
    · rw [exec, execPeriodStart, State.unlessHeld_of_running hrunning]
      exact congrArg Host.Outcome.next (hs.periodStart_withHanded handed ok order)
    · rcases hc with h | h | h | ⟨p, bytes, rfl⟩ | h | h | h | h | ⟨rfl, hline⟩ | ⟨rfl, hline⟩
      case inr.inr.inr.inl =>
        exact congrArg Host.Outcome.next
          (State.betweenFrames_finished hrunning hv hfinish (late := false) (by simp) _)
      · exact State.exec_finished hrunning hv hfinish (.inl h)
      · exact State.exec_finished hrunning hv hfinish (.inr (.inl h))
      · exact State.exec_finished hrunning hv hfinish (.inr (.inr (.inl h)))
      · exact State.exec_finished hrunning hv hfinish (.inr (.inr (.inr (.inl h))))
      · exact State.exec_finished hrunning hv hfinish (.inr (.inr (.inr (.inr (.inl h)))))
      · exact State.exec_finished hrunning hv hfinish (.inr (.inr (.inr (.inr (.inr (.inl h))))))
      · exact State.exec_finished hrunning hv hfinish (.inr (.inr (.inr (.inr (.inr (.inr h))))))
      · exact State.exec_safetyStopFall_finished hrunning hv hfinish hlines hline
      · exact State.exec_safetyStopRise_finished hrunning hv hfinish hlines hline
    · rw [exec, execStsFrame, State.betweenFrames, State.unlessHeld_of_running hrunning,
        if_pos (show true = true ∧ u.ps.underWay = false from ⟨rfl, hs.between⟩)]
    · rw [step_of_empty (s := u) hempty, State.idleTick, State.unlessHeld_of_running hrunning,
        if_pos (show u.unfinished = true by simp [State.unfinished, u, hsome]), hfinish]

end Sys2Proof.Machine

/-! ### Status frames accepted (R4, R6, R12, R61, R98, R99, R104, R130) -/

namespace Sys2Proof.Machine

theorem contactOf_eq_closed : ∀ c : BitVec 3, contactOf c = .closed ↔ c = 1#3 := by decide

theorem contactOf_eq_opened : ∀ c : BitVec 3, contactOf c = .opened ↔ c = 0#3 := by decide

theorem Order.contact_eq_contactOf (d : Order) (c : BitVec 3) :
    d.contact = contactOf c ↔ (d = .opened ∧ c = 0#3) ∨ (d = .closed ∧ c = 1#3) := by
  cases d
  · rw [eq_comm, Order.contact, contactOf_eq_opened]
    tauto
  · rw [eq_comm, Order.contact, contactOf_eq_closed]
    tauto

namespace State

variable {s : State} {p q : Port} {c : Contact}

/-- The bypass unit's state once the contact of a frame has reached it (R61). -/
def confirmedBau (s : State) (p : Port) (c : Contact) : Bypass :=
  if s.inFlight?.any (fun a => a.port == p && a.dir.contact == c) then
    { s.bau with queue := s.bau.queue.drop 1, retry := s.bau.retry.set p.val false }
  else s.bau

/-- A port's entry once the contact of a frame has reached the bypass unit (R12). -/
def confirmedEntry (e : RosterEntry) (c : Contact) : RosterEntry :=
  { e with role := if e.role = .failed ∧ c = .closed then .bypassed else e.role }

theorem confirmed_eq (s : State) (p : Port) (c : Contact) :
    (if s.inFlight?.any (fun a => a.port == p && a.dir.contact == c) then s.dropHead.setRetry p false else s) =
      { s with bau := s.confirmedBau p c } := by
  rw [confirmedBau]
  split <;> rfl

theorem bypassed_eq (s : State) (p : Port) (c : Contact) :
    (if (s.entry p).role = .failed ∧ c = .closed then s.updEntry p (fun e => { e with role := .bypassed }) else s) =
      { s with roster := s.roster.set p.val (confirmedEntry (s.entry p) c) } := by
  rw [confirmedEntry]
  split
  · rfl
  · have hself : s.roster.set p.val (s.entry p) = s.roster := by simp [entry]
    exact congrArg (fun roster => { s with roster := roster }) hself.symm

theorem confirmContact_eq (s : State) (p : Port) (c : Contact) : s.confirmContact p c =
    { s with bau := s.confirmedBau p c, roster := s.roster.set p.val (confirmedEntry (s.entry p) c) } := by
  simp only [confirmContact, confirmed_eq]
  exact bypassed_eq _ p c

/-- A port's carrier record once a capture has reached it (R98, R99, R104). -/
def capturedPort (s : State) (p : Port) (n : Nat) : CarrierPort :=
  let c := { s.cport p with capture := some (s.captureOf p n) }
  match (s.captureOf p n).error with
  | some e =>
    if (s.cport p).sent.judges then
      if s.aligning ∧ (s.entry p).inString then judgePass s.settings.aTol e { c with lastError := some e }
      else { c with lastError := some e }
    else c
  | none => c

theorem takeCapture_eq (s : State) (p : Port) (n : Nat) :
    s.takeCapture p n = s.updCport p (fun _ => s.capturedPort p n) := by
  have htwice (t : State) (f g : CarrierPort → CarrierPort) :
      (t.updCport p f).updCport p g = t.updCport p (fun c => g (f c)) := by
    simp [updCport, updCtu, cport, Vector.set_set]
  rw [takeCapture, capturedPort]
  cases herror : (s.captureOf p n).error with
  | none => rfl
  | some e =>
    simp only [htwice]
    repeat' split
    all_goals rfl

/-- The part when an accepted frame has reached the blocks that use its fields, and before its word is screened. -/
def beforeScreen (s : State) (p : Port) (f : StsFrame) : State :=
  (((s.updLink p Link.accept).recordStatus p f).confirmContact p (contactOf f.contactCode)).takeCapture p f.capture.toNat

theorem recordStatus_eq (s : State) (p : Port) (f : StsFrame) : s.recordStatus p f = { s with
    roster := s.roster.set p.val { s.entry p with
      contact := contactOf f.contactCode, lastStatus := f.word, vdc := f.vdc.toNat
      blind := (s.entry p).blind && f.contactCode != 1#3 } } := by
  have hclosed : (contactOf f.contactCode != .closed) = (f.contactCode != 1#3) := by
    rw [Bool.eq_iff_iff, bne_iff_ne, bne_iff_ne, ne_eq, ne_eq, contactOf_eq_closed]
  rw [recordStatus, updEntry, hclosed]

/-- The fields that an accepted frame leaves in the port's entry (R4, R6, R12). -/
def acceptedEntry (e : RosterEntry) (f : StsFrame) : RosterEntry :=
  { e with
    role := if e.role = .failed ∧ f.contactCode = 1#3 then .bypassed else e.role
    contact := contactOf f.contactCode, lastStatus := f.word, vdc := f.vdc.toNat
    blind := e.blind && f.contactCode != 1#3 }

theorem acceptedEntry_eq (e : RosterEntry) (f : StsFrame) : confirmedEntry { e with
    contact := contactOf f.contactCode, lastStatus := f.word, vdc := f.vdc.toNat
    blind := e.blind && f.contactCode != 1#3 } (contactOf f.contactCode) = acceptedEntry e f := by
  simp only [confirmedEntry, acceptedEntry, contactOf_eq_closed]

/-- The port's carrier record once the capture of an accepted frame has reached it (R98, R99, R104): the frame has
reached the roster before. -/
def acceptedCport (s : State) (p : Port) (f : StsFrame) : CarrierPort :=
  (s.updEntry p (fun e => acceptedEntry e f)).capturedPort p f.capture.toNat

theorem beforeScreen_eq (s : State) (p : Port) (f : StsFrame) : s.beforeScreen p f = { s with
    links := s.links.set p.val (s.link p).accept
    roster := s.roster.set p.val (acceptedEntry (s.entry p) f)
    bau := s.confirmedBau p (contactOf f.contactCode)
    ctu := { s.ctu with ports := s.ctu.ports.set p.val (s.acceptedCport p f) } } := by
  rw [beforeScreen, takeCapture_eq, confirmContact_eq, recordStatus_eq]
  have hentry : (s.roster.set p.val { s.entry p with
      contact := contactOf f.contactCode, lastStatus := f.word, vdc := f.vdc.toNat
      blind := (s.entry p).blind && f.contactCode != 1#3 })[p.val] = { s.entry p with
      contact := contactOf f.contactCode, lastStatus := f.word, vdc := f.vdc.toNat
      blind := (s.entry p).blind && f.contactCode != 1#3 } := by simp
  simp only [entry, updLink, Vector.set_set] at hentry ⊢
  rw [hentry, acceptedEntry_eq]
  rfl

theorem capturedPort_capture (s : State) (p : Port) (n : Nat) :
    (s.capturedPort p n).capture = some (s.captureOf p n) ∧ (s.capturedPort p n).target = (s.cport p).target ∧
      (s.capturedPort p n).sent = (s.cport p).sent := by
  simp only [capturedPort, judgePass]
  repeat' split
  all_goals exact ⟨rfl, rfl, rfl⟩

/-- A capture that answers a phase load, or finds no target, is recorded and nothing else (R98, R99). -/
theorem capturedPort_unjudged {n : Nat} (h : (s.cport p).target = none ∨ (s.cport p).sent.judges = false) :
    s.capturedPort p n = { s.cport p with capture := (s.capturedPort p n).capture } := by
  rw [(s.capturedPort_capture p n).1]
  obtain hnone | hload := h
  · have herror : (s.captureOf p n).error = none := by simp [captureOf, hnone]
    simp only [capturedPort, herror]
  · simp only [capturedPort, hload]
    split <;> rfl

/-- A judged capture (R99, R104). -/
theorem capturedPort_judged {n g : Nat} (hg : (s.cport p).target = some g) (hjudges : (s.cport p).sent.judges = true) :
    let e := wrapError ((correctedOf n (s.entry p).linkDelay s.ctu.pInForce : Int) - g) s.ctu.pInForce
    let c := { s.cport p with capture := some (s.captureOf p n), lastError := some e }
    s.capturedPort p n = if s.aligning ∧ (s.entry p).inString then judgePass s.settings.aTol e c else c := by
  intro e c
  have herror : (s.captureOf p n).error = some e := by simp [captureOf, hg, e]
  simp only [capturedPort, herror, hjudges, if_true, c]

end State

theorem Plan.judges_eq_false {x : Plan} : x.judges = false ↔ ∃ n down, x = .load n down := by
  cases x <;> simp [Plan.judges]

theorem RosterEntry.inString_iff {e : RosterEntry} : e.inString = true ↔ e.role = .active ∨ e.role = .isolating := by
  cases h : e.role <;> simp [RosterEntry.inString, h]

namespace State

theorem aligning_iff {s : State} : s.aligning = true ↔ s.mode = .run ∧ s.rsq.stage = .align := by
  simp [aligning]

/-- Pass count and mark after a judged capture that counts (R104). -/
theorem judgePass_within {a : Nat} {e : Int} (c : CarrierPort) (h : e.natAbs ≤ a) :
    (judgePass a e c).passCount = min 2 (c.passCount + 1) ∧
      (judgePass a e c).aligned = (c.aligned || decide (1 ≤ c.passCount)) := by
  rw [judgePass, if_pos h]
  exact ⟨rfl, by simp⟩

theorem judgePass_beyond {a : Nat} {e : Int} (c : CarrierPort) (h : a < e.natAbs) :
    (judgePass a e c).passCount = 0 ∧ (judgePass a e c).aligned = false := by
  rw [judgePass, if_neg (by omega)]
  exact ⟨rfl, rfl⟩

theorem judgePass_lastError (a : Nat) (e : Int) (c : CarrierPort) : (judgePass a e c).lastError = c.lastError := by
  rw [judgePass]
  split <;> rfl

variable {s : State} {p : Port} {c : Contact}

/-- The contact confirms the port's entry in flight (R61). -/
theorem confirmedBau_of_confirms {a : Actuation} {rest : List Actuation} (hq : s.bau.queue = a :: rest)
    (hi : a.issued.isSome = true) (hp : a.port = p) (hd : a.dir.contact = c) :
    s.confirmedBau p c = { s.bau with queue := rest, retry := s.bau.retry.set p.val false } := by
  have hflight : s.inFlight? = some a := by simp [inFlight?, hq, hi]
  rw [confirmedBau, if_pos (by simp [hflight, hp, hd]), hq]
  rfl

/-- The contact confirms nothing: no entry is in flight, or it is another port's, or of the other direction (R61). -/
theorem confirmedBau_of_not (h : s.bau.queue = [] ∨ ∃ a rest, s.bau.queue = a :: rest ∧
    (a.issued = none ∨ a.port ≠ p ∨ a.dir.contact ≠ c)) : s.confirmedBau p c = s.bau := by
  refine if_neg ?_
  obtain hq | ⟨a, rest, hq, hi | hp | hd⟩ := h <;> cases hissued : (s.inFlight?) <;> simp_all [inFlight?]

end State

namespace State

variable {s : State} {p : Port}

theorem captureOf_acceptedEntry (s : State) (p : Port) (f : StsFrame) (n : Nat) :
    (s.updEntry p (fun e => acceptedEntry e f)).captureOf p n = s.captureOf p n := by
  simp [captureOf, acceptedEntry]

/-- The carrier record of the port of an accepted frame, by the capture it brings (R98, R99, R104). -/
theorem acceptedCport_capture (s : State) (p : Port) (f : StsFrame) :
    (s.acceptedCport p f).capture = some (s.captureOf p f.capture.toNat) ∧
      (s.acceptedCport p f).target = (s.cport p).target ∧ (s.acceptedCport p f).sent = (s.cport p).sent := by
  obtain ⟨hcapture, htarget, hsent⟩ :=
    capturedPort_capture (s.updEntry p (fun e => acceptedEntry e f)) p f.capture.toNat
  exact ⟨by rw [acceptedCport, hcapture, captureOf_acceptedEntry], htarget, hsent⟩

theorem acceptedCport_judged {f : StsFrame} {g : Nat} (hg : (s.cport p).target = some g)
    (hjudges : (s.cport p).sent.judges = true) :
    let e := wrapError ((correctedOf f.capture.toNat (s.entry p).linkDelay s.ctu.pInForce : Int) - g) s.ctu.pInForce
    let c := { s.cport p with capture := some (s.captureOf p f.capture.toNat), lastError := some e }
    s.acceptedCport p f =
      if s.aligning ∧ (acceptedEntry (s.entry p) f).inString then judgePass s.settings.aTol e c else c := by
  have hjudged := capturedPort_judged (s := s.updEntry p (fun e => acceptedEntry e f)) (n := f.capture.toNat) hg hjudges
  rw [captureOf_acceptedEntry, updEntry_entry, if_pos rfl] at hjudged
  exact hjudged

theorem beforeScreen_entry (s : State) (p : Port) (f : StsFrame) (q : Port) :
    (s.beforeScreen p f).entry q = if p = q then acceptedEntry (s.entry p) f else s.entry q := by
  rw [beforeScreen_eq]
  exact updEntry_entry s p (fun e => acceptedEntry e f) q

theorem beforeScreen_cport (s : State) (p : Port) (f : StsFrame) (q : Port) :
    (s.beforeScreen p f).cport q = if p = q then s.acceptedCport p f else s.cport q := by
  rw [beforeScreen_eq]
  exact updCport_cport s p (fun _ => s.acceptedCport p f) q

theorem beforeScreen_link (s : State) (p : Port) (f : StsFrame) (q : Port) :
    (s.beforeScreen p f).link q = if p = q then (s.link p).accept else s.link q := by
  rw [beforeScreen_eq]
  exact updLink_link s p Link.accept q

theorem Settled.exec_stsFrame_accepted (hs : s.Settled) {bytes : List Byte} {f : StsFrame} (hcheck : s.checkSts bytes = some f)
    (hport : f.port.toNat = p.val)
    (hlink : (s.link p).state = .linking ∨ (s.link p).state = .up ∨ (s.link p).state = .missing)
    (htag : (s.link p).tagSent = some f.tag) (haccepted : (s.link p).accepted = false) (late : Bool) :
    exec (.stsFrame p ⟨bytes, late⟩) s = .next ((s.beforeScreen p f).screenWord p f.word late) := by
  rw [hs.exec_stsFrame, receiveSts, judgeSts_current hcheck hport hlink htag, if_neg (by simp [haccepted])]
  rfl

end State

open State in
/-- Settles O29: by what reaches the four blocks before the word is screened. -/
theorem statusFrameConfirmsAndJudges : Obligations.StatusFrameConfirmsAndJudges := by
  unfold Obligations.StatusFrameConfirmsAndJudges
  intro p bytes late f s hs hcheck hport hlink htag haccepted
  refine ⟨_, hs.exec_stsFrame_accepted hcheck hport hlink htag haccepted late, ?_⟩
  have hu := s.beforeScreen_eq p f
  have hentry := s.beforeScreen_entry p f
  have hcport := s.beforeScreen_cport p f
  have hlinks := s.beforeScreen_link p f
  generalize s.beforeScreen p f = u at hu hentry hcport hlinks
  have hself : u.cport p = s.acceptedCport p f := by rw [hcport, if_pos rfl]
  have hbau : u.bau = s.confirmedBau p (contactOf f.contactCode) := by rw [hu]
  have hrole : (acceptedEntry (s.entry p) f).inString = true ↔ (u.entry p).role = .active ∨ (u.entry p).role = .isolating := by
    rw [hentry, if_pos rfl, RosterEntry.inString_iff]
  obtain ⟨-, htarget, hsent⟩ := s.acceptedCport_capture p f
  refine ⟨by rw [hu], fun q hq => ⟨?_, ?_, ?_⟩, ?_, ?_, fun a rest hq hi hp hd => ?_, fun hidle => ?_, ?_, ?_,
    fun hunjudged => ?_, fun g hg hload => ?_⟩
  · rw [hlinks, if_neg hq.symm]
  · rw [hentry, if_neg hq.symm]
  · rw [hcport, if_neg hq.symm]
  · rw [hlinks, if_pos rfl]
    rfl
  · rw [hentry, if_pos rfl]
    rfl
  · rw [hbau, confirmedBau_of_confirms hq hi hp ((Order.contact_eq_contactOf _ _).mpr hd)]
  · rw [hbau]
    refine confirmedBau_of_not (hidle.imp_right fun ⟨a, rest, hq, hnot⟩ => ⟨a, rest, hq, ?_⟩)
    rwa [← Order.contact_eq_contactOf] at hnot
  · rw [hself, htarget]
  · rw [hself, hsent]
  · rw [hself]
    exact capturedPort_unjudged (hunjudged.imp_right Plan.judges_eq_false.mpr)
  · intro e
    have hjudges : (s.cport p).sent.judges = true := by
      rw [← Bool.not_eq_false, Plan.judges_eq_false]
      exact fun ⟨n, down, h⟩ => hload n down h
    have hjudged := acceptedCport_judged (f := f) hg hjudges
    simp only [hrole, aligning_iff] at hjudged
    rw [hself, hjudged]
    refine ⟨?_, fun hrun halign hstring => ?_, fun hnot => ?_⟩
    · split
      · rw [judgePass_lastError]
      · rfl
    · rw [if_pos ⟨⟨hrun, halign⟩, hstring⟩]
      exact ⟨judgePass_within _, judgePass_beyond _⟩
    · rw [if_neg (by tauto)]
      exact ⟨rfl, rfl⟩

end Sys2Proof.Machine

/-! ### What an accepted status frame leaves alone (R130) -/

namespace Sys2Proof.Machine

namespace State

variable {s t : State} {p : Port} {w : Half} {i : Fin 16}

theorem aftermath_updSsc {f : Screen → Screen} (hf : f s.ssc = { s.ssc with hits := (f s.ssc).hits, handed := (f s.ssc).handed }) :
    Aftermath s (s.updSsc f) :=
  ⟨fun _ => rfl, fun _ => rfl, fun _ h => h, List.Subset.refl _, rfl, rfl, hf, rfl⟩

theorem aftermath_takeLatch (s : State) (l : Latch) : Aftermath s (s.takeLatch l) :=
  s.aftermath_cellKept.takeLatch (Aftermath.refl s) l

theorem aftermath_handLatch (s : State) (l : Latch) (late : Bool) : Aftermath s (s.handLatch l late) := by
  rw [handLatch]
  split
  · exact aftermath_updSsc rfl
  · exact s.aftermath_takeLatch l

theorem aftermath_urgentZero (s : State) (p : Port) : Aftermath s (s.urgentZero p) where
  link q := by
    rw [urgentZero, updLink_link]
    split
    · rename_i hq
      rw [hq]
    · rfl
  record _ := rfl
  flags _ h := h
  queue := List.Subset.refl _
  fixed := rfl
  ctu := rfl
  ssc := rfl
  cli := rfl

theorem aftermath_noteWord (s : State) (p : Port) : Aftermath s (s.noteWord p) :=
  (aftermath_updEntry (f := fun e => { e with noteCount := saturate 65535 e.noteCount }) rfl).trans (aftermath_raise _ _)

theorem aftermath_clipWord (s : State) (p : Port) (w : Half) (i : Fin 16) (late : Bool) :
    Aftermath s (s.clipWord p w i late) := by
  have hbucket (n : Nat) : Aftermath s ((s.raise .clip).updEntry p (fun e => { e with clipBucket := n })) :=
    (s.aftermath_raise .clip).trans (aftermath_updEntry (f := fun e => { e with clipBucket := n }) rfl)
  simp only [clipWord]
  split
  · exact (hbucket 0).trans (aftermath_handLatch _ _ _)
  · split
    · exact (hbucket _).trans (aftermath_urgentZero _ _)
    · exact hbucket _

theorem aftermath_tripWord (s : State) (p : Port) (w : Half) (i : Fin 16) : Aftermath s (s.tripWord p w i) := by
  have hraised := s.aftermath_raise .tripCause
  simp only [tripWord]
  split
  · exact hraised.trans (aftermath_requestTrip _ _)
  · exact hraised.trans (aftermath_writeLog _ _)

theorem aftermath_applyAction (s : State) (p : Port) (w : Half) (i : Fin 16) (a : Action) (late : Bool) :
    Aftermath s (s.applyAction p w i a late) := by
  cases a
  case pass => exact Aftermath.refl s
  case note => exact s.aftermath_noteWord p
  case clip => exact s.aftermath_clipWord p w i late
  case latch => exact s.aftermath_handLatch _ late
  case trip => exact s.aftermath_tripWord p w i

/-- What the word of an accepted frame leaves alone, whatever it leads to. -/
theorem aftermath_screenWord (s : State) (p : Port) (w : Half) (late : Bool) : Aftermath s (s.screenWord p w late) := by
  rw [screenWord]
  split
  · split
    · exact (aftermath_updSsc rfl).trans (aftermath_applyAction _ _ _ _ _ _)
    · exact Aftermath.refl s
  · exact Aftermath.refl s

/-- A word that is not late hands no latch over (log 38). -/
theorem screenWord_handed (s : State) (p : Port) (w : Half) : (s.screenWord p w false).ssc.handed = s.ssc.handed := by
  have hhand (t : State) (l : Latch) : (t.handLatch l false).ssc.handed = t.ssc.handed := by simp [handLatch]
  have happly (t : State) (i : Fin 16) (a : Action) : (t.applyAction p w i a false).ssc.handed = t.ssc.handed := by
    cases a <;> simp only [applyAction, noteWord, clipWord, tripWord]
    case latch => exact hhand t _
    all_goals repeat' split
    all_goals simp [hhand]
  rw [screenWord]
  split
  · split
    · exact happly _ _ _
    · rfl
  · rfl

end State

open State in
/-- Settles O28: what reaches the blocks before the word is screened, and what the word leaves alone. -/
theorem statusFrameAccepted : Obligations.StatusFrameAccepted := by
  unfold Obligations.StatusFrameAccepted
  intro p bytes late f s hs hcheck hport hlink htag haccepted
  have hafter := (s.beforeScreen p f).aftermath_screenWord p f.word late
  have hhanded : late = false → ((s.beforeScreen p f).screenWord p f.word late).ssc.handed = [] := by
    rintro rfl
    rw [screenWord_handed, s.beforeScreen_eq p f, hs.taken]
  refine ⟨_, hs.exec_stsFrame_accepted hcheck hport hlink htag haccepted late, ?_⟩
  have hu := s.beforeScreen_eq p f
  have hentry := s.beforeScreen_entry p f
  have hcport := s.beforeScreen_cport p f
  have hlinks := s.beforeScreen_link p f
  generalize s.beforeScreen p f = u at hu hentry hcport hlinks hafter hhanded ⊢
  generalize u.screenWord p f.word late = t at hafter hhanded ⊢
  have hself : (t.entry p).record = (acceptedEntry (s.entry p) f).record := by rw [hafter.record, hentry, if_pos rfl]
  have hother (q : Port) (hq : q ≠ p) : (t.entry q).record = (s.entry q).record := by
    rw [hafter.record, hentry, if_neg hq.symm]
  have hcports (q : Port) : t.cport q = u.cport q := by rw [cport, hafter.ctu]; rfl
  simp only [RosterEntry.record, acceptedEntry, Prod.mk.injEq] at hself hother
  obtain ⟨hinstalled, hrank, hdelay, horder, hcontact, hword, hvdc, hblind⟩ := hself
  obtain ⟨hcapture, -, -⟩ := s.acceptedCport_capture p f
  refine ⟨?_, fun q hq => ?_, fun h => ?_, fun h => ?_, fun h => ?_, fun h => ?_, hword, hvdc, hblind, fun q hq => ?_,
    fun q => ?_, ?_, fun q hq => ?_, ?_, hhanded⟩
  · rw [hafter.link p, hlinks, if_pos rfl]
    rfl
  · rw [hafter.link q, hlinks, if_neg hq.symm]
  · rw [hcontact, h]
    rfl
  · rw [hcontact, h]
    rfl
  · rw [hcontact, h]
    rfl
  · rw [hcontact, h]
    rfl
  · obtain ⟨-, -, -, -, hcontact, hword, hvdc, hblind⟩ := hother q hq
    exact ⟨hcontact, hword, hvdc, hblind⟩
  · by_cases hq : q = p
    · subst hq
      exact ⟨horder, hinstalled, hrank, hdelay⟩
    · obtain ⟨hinstalled, hrank, hdelay, horder, -⟩ := hother q hq
      exact ⟨horder, hinstalled, hrank, hdelay⟩
  · rw [hcports, hcport, if_pos rfl, hcapture]
    rfl
  · rw [hcports, hcport, if_neg hq.symm]
  · have hfixed := hafter.fixed
    have hctu := hafter.ctu
    have hssc := hafter.ssc
    have hcli := hafter.cli
    rw [hu] at hfixed hctu hssc hcli
    simp only [State.fixed, Prod.mk.injEq] at hfixed
    obtain ⟨hlines, hps, hpa, hrs, hra, hrtu, hss, hsa, hmga, hsettings, hpending⟩ := hfixed
    exact eq_of_fields hlines rfl rfl hps hpa rfl rfl hrs hra hrtu (by rw [hctu]) hss hsa hssc rfl hcli hmga hsettings rfl rfl
      hpending

end Sys2Proof.Machine

/-! ### The rebuild at REMAP completion (R17) -/

namespace Sys2Proof.Machine

namespace State

variable {s : State} {p : Port} {x : Phase}

/-- A cell takes the place of an ISOLATING one at the rebuild: a confirmed spare (R17). -/
def Replaces (s : State) (p : Port) : Prop :=
  s.openingConfirmed p = true ∧ ∃ q, (s.entry p).insertionTarget = some q ∧ (s.entry q).role = .isolating

theorem Replaces.spare (h : s.Replaces p) : (s.entry p).role = .spare := by
  have hconfirmed := h.1
  simp only [openingConfirmed, Bool.and_eq_true, beq_iff_eq] at hconfirmed
  tauto

/-- The place of a cell in the string that the rebuild leaves: its own, or that of the cell a spare replaces (R17). -/
def rebuiltPlace (s : State) (p : Port) : Option Nat :=
  if (s.entry p).role = .spare then (s.entry p).insertionTarget.bind (fun q => (s.entry q).position)
  else (s.entry p).position

/-- The four things the rebuild may make of an entry (R17). -/
inductive Rebuilt (s : State) (p : Port) (e : RosterEntry) : Prop where
  | removed : (s.entry p).role = .isolating → e = { s.entry p with role := .bypassed, position := none } → Rebuilt s p e
  | inserted : s.Replaces p →
      e = { s.entry p with role := .active, position := s.rebuiltPlace p, insertionTarget := none } → Rebuilt s p e
  | released : ¬ s.Replaces p → (s.entry p).role = .spare → e = { s.entry p with insertionTarget := none } → Rebuilt s p e
  | kept : ¬ s.Replaces p → (s.entry p).role ≠ .isolating → (s.entry p).role ≠ .spare → e = s.entry p → Rebuilt s p e

theorem rebuiltEntry_rebuilt (s : State) (p : Port) : s.Rebuilt p (s.rebuiltEntry p (s.entry p)) := by
  rw [rebuiltEntry]
  cases hr : (s.entry p).role
  case isolating => exact .removed hr rfl
  case spare =>
    cases ht : (s.entry p).insertionTarget with
    | none => exact .released (fun ⟨_, q, hq, _⟩ => by simp [ht] at hq) hr (by simp [← ht])
    | some q =>
      have hplace : s.rebuiltPlace p = (s.entry q).position := by simp [rebuiltPlace, hr, ht]
      by_cases hc : s.openingConfirmed p = true ∧ (s.entry q).role = .isolating
      · exact .inserted ⟨hc.1, q, ht, hc.2⟩ (by simp [hc.1, hc.2, hplace])
      · refine .released (fun ⟨hopen, q', hq', hisolating⟩ => hc ⟨hopen, ?_⟩) hr ?_
        · rw [ht] at hq'
          cases hq'
          exact hisolating
        · simp [hc, ← hr]
  all_goals exact .kept (fun h => by simp [h.spare] at hr) (by simp [hr]) (by simp [hr]) rfl

theorem rebuild_eq (s : State) : s.rebuild =
    { s with roster := s.rebuild.roster, bau := { s.bau with blindStart := Vector.replicate 24 none } } := by
  rw [rebuild, renumber_eq, mapEntries_eq]
  rfl

theorem rebuild_entry_eq (s : State) (p : Port) :
    s.rebuild.entry p = { s.rebuiltEntry p (s.entry p) with position := (s.rebuild.entry p).position } := by
  rw [rebuild_entry, renumbered_eq]

/-- What the rebuild leaves of every entry, but for its place in the string. -/
theorem rebuild_entry_rebuilt (s : State) (p : Port) :
    s.rebuild.entry p = { s.entry p with
      role := (s.rebuild.entry p).role, position := (s.rebuild.entry p).position
      insertionTarget := (s.rebuild.entry p).insertionTarget } ∧
    ((s.rebuild.entry p).role = .spare → (s.rebuild.entry p).insertionTarget = none) ∧
    ((s.entry p).role = .isolating → (s.rebuild.entry p).role = .bypassed) ∧
    (s.Replaces p → (s.rebuild.entry p).role = .active) ∧
    (¬ s.Replaces p → (s.entry p).role ≠ .isolating → (s.rebuild.entry p).role = (s.entry p).role) := by
  have hr := s.rebuild_entry_eq p
  generalize s.rebuild.entry p = r at hr ⊢
  cases s.rebuiltEntry_rebuilt p
  case removed hi he =>
    rw [he] at hr
    refine ⟨hr ▸ rfl, fun h => ?_, fun _ => by rw [hr], fun h => ?_, fun _ h => absurd hi h⟩
    · rw [hr] at h; cases h
    · rw [h.spare] at hi; cases hi
  case inserted hreplaces he =>
    rw [he] at hr
    refine ⟨hr ▸ rfl, fun _ => by rw [hr], fun h => ?_, fun _ => by rw [hr], fun h => absurd hreplaces h⟩
    rw [hreplaces.spare] at h; cases h
  case released hnot hs he =>
    rw [he] at hr
    refine ⟨hr ▸ rfl, fun _ => by rw [hr], fun h => ?_, fun h => absurd h hnot, fun _ _ => by rw [hr]⟩
    rw [hs] at h; cases h
  case kept hnot hi hs he =>
    rw [he] at hr
    refine ⟨hr ▸ rfl, fun h => ?_, fun h => absurd h hi, fun h => absurd h hnot, fun _ _ => by rw [hr]⟩
    rw [hr] at h
    exact absurd h hs

theorem rebuild_phaseString (s : State) (x : Phase) : s.rebuild.phaseString x = (s.mapEntries s.rebuiltEntry).phaseString x :=
  phaseString_of_renumbered (fun p _ => by rw [rebuild_entry, mapEntries_entry])

theorem mem_rebuild_phaseString : p ∈ s.rebuild.phaseString x ↔ phaseOf p = x ∧ ((s.entry p).role = .active ∨ s.Replaces p) := by
  rw [rebuild_phaseString, mem_phaseString, mapEntries_entry, RosterEntry.inString_iff]
  refine and_congr_right fun _ => ?_
  cases s.rebuiltEntry_rebuilt p
  case removed hi he =>
    rw [he, hi]
    exact iff_of_false (by simp) (fun h => h.elim (by simp) (fun h => by rw [h.spare] at hi; cases hi))
  case inserted hreplaces he =>
    rw [he]
    exact iff_of_true (.inl rfl) (.inr hreplaces)
  case released hnot hs he =>
    rw [he, hs]
    exact iff_of_false (by simp) (fun h => h.elim (by simp) hnot)
  case kept hnot hi hs he =>
    rw [he]
    tauto

/-- R17: the rebuilt string goes by the places, ties by the port. -/
theorem rebuild_phaseString_pairwise (s : State) (x : Phase) : (s.rebuild.phaseString x).Pairwise (fun p q =>
    (s.rebuiltPlace p).getD 8 < (s.rebuiltPlace q).getD 8 ∨
      ((s.rebuiltPlace p).getD 8 = (s.rebuiltPlace q).getD 8 ∧ p < q)) := by
  have hkey (p : Port) (hp : p ∈ s.rebuild.phaseString x) :
      (s.mapEntries s.rebuiltEntry).stringKey p = 24 * (s.rebuiltPlace p).getD 8 + p.val := by
    have hmem := (mem_rebuild_phaseString.mp hp).2
    rw [stringKey, mapEntries_entry]
    cases s.rebuiltEntry_rebuilt p
    case removed hi he =>
      have hfalse : False := hmem.elim (fun h => by simp [h] at hi) (fun h => by simp [h.spare] at hi)
      exact hfalse.elim
    case inserted hreplaces he => rw [he]
    case released hnot hs he =>
      have hfalse : False := hmem.elim (fun h => by simp [h] at hs) hnot
      exact hfalse.elim
    case kept hnot hi hs he => rw [he, rebuiltPlace, if_neg hs]
  have hsorted := (s.mapEntries s.rebuiltEntry).phaseString_pairwise x
  rw [← rebuild_phaseString] at hsorted
  refine hsorted.imp_of_mem fun {p q} hp hq hlt => ?_
  rw [hkey p hp, hkey q hq] at hlt
  rw [Fin.lt_def]
  omega

end State
end Sys2Proof.Machine

/-! ### REMAP completion (R26, R39, R42, R44, R156) -/

namespace Sys2Proof.Machine

/-- The lowest port with a property is the first that the search finds. -/
theorem allPorts_find?_eq_some {f : Port → Bool} {p : Port} (hp : f p = true) (hlow : ∀ q, q < p → f q = false) :
    allPorts.find? f = some p := by
  rw [allPorts, List.find?_eq_some_iff_getElem]
  exact ⟨hp, p.val, by simp, by simp, fun j hj => by simpa using hlow ⟨j, hj.trans p.isLt⟩ hj⟩

namespace State

variable {s t : State} {p : Port}

/-- A mark's groups are copied and the mark is cleared (R156). -/
theorem applyRecovery_eq (s : State) : s.applyRecovery = { s with
    screenActive := if s.mga.recoveryMarks.screen then s.screenStaged else s.screenActive
    ssc := if s.mga.recoveryMarks.screen then { s.ssc with hits := Vector.replicate 16 0 } else s.ssc
    rebalActive := if s.mga.recoveryMarks.rebalance then s.rebalStaged else s.rebalActive
    policyActive := if s.mga.recoveryMarks.policy then s.policyStaged else s.policyActive
    cli := if s.mga.recoveryMarks.screen ∨ s.mga.recoveryMarks.rebalance ∨ s.mga.recoveryMarks.policy then
      { s.cli with flags := withFlag s.cli.flags .commitApplied } else s.cli
    mga := { s.mga with recoveryMarks := ⟨false, false, false⟩ } } := by
  have hany : (!s.recoveryDue.isEmpty) = true ↔
      s.mga.recoveryMarks.screen ∨ s.mga.recoveryMarks.rebalance ∨ s.mga.recoveryMarks.policy := by
    rw [Bool.not_eq_true', List.isEmpty_eq_false_iff_exists_mem]
    simp only [mem_recoveryDue, exists_group_iff]
    rfl
  have hcli : ({ s.cli with flags := withFlagIf s.cli.flags (!s.recoveryDue.isEmpty) .commitApplied } : Control) =
      if s.mga.recoveryMarks.screen ∨ s.mga.recoveryMarks.rebalance ∨ s.mga.recoveryMarks.policy then
        { s.cli with flags := withFlag s.cli.flags .commitApplied } else s.cli := by
    rw [withFlagIf]
    simp only [hany]
    split <;> rfl
  rw [applyRecovery, copyBanks_eq, hcli]
  simp only [mem_recoveryDue]
  rfl

/-- The cells made ISOLATING together, one after another. -/
theorem foldl_makeIsolating_eq (ps : List Port) (s : State) : ps.foldl makeIsolating s = { s with
    roster := (ps.foldl makeIsolating s).roster
    bau := { s.bau with blindStart := (ps.foldl makeIsolating s).bau.blindStart } } := by
  induction ps generalizing s with
  | nil => rfl
  | cons p ps ih =>
    rw [List.foldl_cons, ih]
    rfl

theorem foldl_makeIsolating_entry (ps : List Port) (s : State) (p : Port) :
    (ps.foldl makeIsolating s).entry p =
      if p ∈ ps then { s.entry p with role := .isolating, deferred := false } else s.entry p := by
  induction ps generalizing s with
  | nil => rfl
  | cons q ps ih =>
    rw [List.foldl_cons, ih]
    by_cases hq : q = p
    · subst hq
      simp [makeIsolating_entry_self]
    · simp [makeIsolating_entry _ _ _ hq, Ne.symm hq]

theorem foldl_makeIsolating_blindStart (ps : List Port) (s : State) (p : Port) :
    (ps.foldl makeIsolating s).bau.blindStart[p.val] =
      if p ∈ ps then some s.ctu.counter else s.bau.blindStart[p.val] := by
  induction ps generalizing s with
  | nil => rfl
  | cons q ps ih =>
    rw [List.foldl_cons, ih]
    by_cases hq : q = p
    · subst hq
      simp [makeIsolating]
    · have hval : q.val ≠ p.val := fun h => hq (Fin.ext h)
      simp [makeIsolating, hval, Ne.symm hq]

theorem aftermath_foldl_makeIsolating (ps : List Port) (s : State) : Aftermath s (ps.foldl makeIsolating s) := by
  induction ps generalizing s with
  | nil => exact Aftermath.refl s
  | cons p ps ih => exact (s.aftermath_makeIsolating p).trans (ih _)

theorem mem_deferredCells : p ∈ s.deferredCells ↔ (s.entry p).role = .active ∧ (s.entry p).deferred = true := by
  simp [deferredCells, mem_allPorts]

/-- The deferred cells accepted together where one of them may not be deemed closed (R44). -/
theorem acceptDeferred_lost (hp : p ∈ s.deferredCells) (hlost : s.blindForbidden p s.governingPolicy = true)
    (hlow : ∀ q, q < p → q ∈ s.deferredCells → s.blindForbidden q s.governingPolicy = false) :
    s.acceptDeferred s.deferredCells = (s.deferredCells.foldl makeIsolating s).requestTrip
      { cause := .linkLostNoBlind, port := some p } := by
  have hfind : s.deferredCells.find? (fun q => s.blindForbidden q s.governingPolicy) = some p := by
    rw [deferredCells, List.find?_filter]
    refine allPorts_find?_eq_some (by simpa [hlost] using mem_deferredCells.mp hp) fun q hq => ?_
    have hnot := hlow q hq
    rw [mem_deferredCells] at hnot
    simpa using hnot
  simp only [acceptDeferred, hfind]

theorem deferred_find?_eq_none (h : ∀ q ∈ s.deferredCells, s.blindForbidden q s.governingPolicy = false) :
    s.deferredCells.find? (fun q => s.blindForbidden q s.governingPolicy) = none :=
  List.find?_eq_none.mpr fun q hq => by simp [h q hq]

/-- The deferred cells accepted together beyond max_nest (R42). -/
theorem acceptDeferred_deep (h : ∀ q ∈ s.deferredCells, s.blindForbidden q s.governingPolicy = false)
    (hdeep : s.governingPolicy.maxNest ≤ s.rsq.nest.length) (hp : p ∈ s.deferredCells)
    (hlow : ∀ q, q < p → q ∉ s.deferredCells) :
    s.acceptDeferred s.deferredCells = (s.deferredCells.foldl makeIsolating s).requestTrip
      { cause := .nestLimit, port := some p } := by
  have hhead : s.deferredCells.head? = some p := by
    rw [deferredCells, List.head?_filter]
    refine allPorts_find?_eq_some (by simpa using mem_deferredCells.mp hp) fun q hq => ?_
    have hnot := hlow q hq
    rw [mem_deferredCells] at hnot
    simpa using hnot
  simp only [acceptDeferred, deferred_find?_eq_none h, if_pos (show s.governingPolicy.maxNest < s.nestDepth + 1 from
    Nat.lt_succ_of_le hdeep), hhead]

/-- The deferred cells accepted together (R39). -/
theorem acceptDeferred_push (h : ∀ q ∈ s.deferredCells, s.blindForbidden q s.governingPolicy = false)
    (hnest : s.rsq.nest.length < s.governingPolicy.maxNest) :
    s.acceptDeferred s.deferredCells = (s.deferredCells.foldl makeIsolating s).push .remap s.rsq.gapCount none := by
  simp only [acceptDeferred, deferred_find?_eq_none h, if_neg (show ¬ s.governingPolicy.maxNest < s.nestDepth + 1 from
    Nat.not_lt.mpr hnest)]

/-- The rebuild does not look at the sequencer or at the period start under way. -/
theorem rebuild_blocks (s : State) (r : Sequencer) (ps : PeriodProgress) :
    ({ s with rsq := r, ps := ps } : State).rebuild = { s.rebuild with rsq := r, ps := ps } := by
  rw [rebuild_eq, s.rebuild_eq]
  rfl

/-- The part when the strings are rebuilt and the RECOVERY marks applied, before the lookup. -/
def remapped (s : State) : State := ((s.taking .sequencer).counted).rebuild.applyRecovery

theorem remapped_eq (hn : s.rsq.nest ≠ []) : s.remapped = { s with
    roster := s.rebuild.roster, bau := { s.bau with blindStart := Vector.replicate 24 none }
    rsq := { s.rsq with gapCount := s.rsq.gapCount + 1 }
    rebalActive := if s.mga.recoveryMarks.rebalance then s.rebalStaged else s.rebalActive
    screenActive := if s.mga.recoveryMarks.screen then s.screenStaged else s.screenActive
    policyActive := if s.mga.recoveryMarks.policy then s.policyStaged else s.policyActive
    ssc := if s.mga.recoveryMarks.screen then { s.ssc with hits := Vector.replicate 16 0 } else s.ssc
    cli := if s.mga.recoveryMarks.screen ∨ s.mga.recoveryMarks.rebalance ∨ s.mga.recoveryMarks.policy then
      { s.cli with flags := withFlag s.cli.flags .commitApplied } else s.cli
    mga := { s.mga with recoveryMarks := ⟨false, false, false⟩ }
    ps := { s.ps with taken := .sequencer :: s.ps.taken } } := by
  have hcounted : (s.taking .sequencer).counted = { s with
      rsq := { s.rsq with gapCount := s.rsq.gapCount + 1 }
      ps := { s.ps with taken := .sequencer :: s.ps.taken } } := counted_of_open (s := s.taking .sequencer) hn
  rw [remapped, hcounted, rebuild_blocks, rebuild_eq, applyRecovery_eq]

theorem acceptDeferred_outcome (s : State) (ps : List Port) :
    (∃ r, s.acceptDeferred ps = (ps.foldl makeIsolating s).requestTrip r) ∨
      s.acceptDeferred ps = (ps.foldl makeIsolating s).push .remap s.rsq.gapCount none := by
  simp only [acceptDeferred]
  repeat' split
  · exact .inl ⟨_, rfl⟩
  · exact .inl ⟨_, rfl⟩
  · exact .inr rfl

theorem requestTrip_rsq_kept (s : State) (r : TripRequest) :
    (s.requestTrip r).rsq.gapCount = s.rsq.gapCount ∧ (s.requestTrip r).rsq.restartNumber = s.rsq.restartNumber := by
  by_cases hm : s.mode = .run
  · rw [requestTrip_of_run hm, departRun_eq, writeLog_eq]
    exact ⟨rfl, rfl⟩
  · rw [requestTrip_of_not_run hm]
    exact ⟨rfl, rfl⟩

theorem acceptDeferred_gapCount (s : State) (ps : List Port) : (s.acceptDeferred ps).rsq.gapCount = s.rsq.gapCount := by
  have hrsq : (ps.foldl makeIsolating s).rsq = s.rsq := by rw [foldl_makeIsolating_eq]
  simp only [acceptDeferred]
  repeat' split
  · rw [(requestTrip_rsq_kept _ _).1, hrsq]
  · rw [(requestTrip_rsq_kept _ _).1, hrsq]
  · rfl

theorem aftermath_acceptDeferred (s : State) (ps : List Port) : Aftermath s (s.acceptDeferred ps) := by
  have hisolating := aftermath_foldl_makeIsolating ps s
  simp only [acceptDeferred]
  repeat' split
  · exact hisolating.trans (aftermath_requestTrip _ _)
  · exact hisolating.trans (aftermath_requestTrip _ _)
  · exact hisolating.trans (aftermath_push _ _ _ _)

theorem remapCompletion_none (h : s.rebuild.applyRecovery.activeLookup = none) : s.remapCompletion =
    s.rebuild.applyRecovery.requestTrip { cause := .noRebalance, deficits := some s.rebuild.applyRecovery.deficits } := by
  simp only [remapCompletion, h]

theorem remapCompletion_some (h : s.rebuild.applyRecovery.activeLookup.isSome = true) : s.remapCompletion =
    if s.rebuild.applyRecovery.deferredCells = [] then s.rebuild.applyRecovery.enterAlign
    else s.rebuild.applyRecovery.acceptDeferred s.rebuild.applyRecovery.deferredCells := by
  obtain ⟨i, hi⟩ := Option.isSome_iff_exists.mp h
  simp only [remapCompletion, hi]

theorem aftermath_enterAlign (s : State) : Aftermath s s.enterAlign :=
  (s.aftermath_updRsq (fun r => { r with stage := .align })).trans (aftermath_closeWindow _)

/-- What the lookup leads to leaves the banks and the gap count as they are. -/
theorem aftermath_remapCompletion (s : State) : Aftermath s.rebuild.applyRecovery s.remapCompletion ∧
    s.remapCompletion.rsq.gapCount = s.rebuild.applyRecovery.rsq.gapCount := by
  cases h : s.rebuild.applyRecovery.activeLookup with
  | none =>
    rw [remapCompletion_none h]
    exact ⟨aftermath_requestTrip _ _, (requestTrip_rsq_kept _ _).1⟩
  | some i =>
    rw [remapCompletion_some (by simp [h])]
    split
    · exact ⟨aftermath_enterAlign _, rfl⟩
    · exact ⟨aftermath_acceptDeferred _ _, acceptDeferred_gapCount _ _⟩

theorem compactedEntry_role_of_isolating (hi : (s.entry p).role = .isolating) :
    (s.compactedEntry p (s.entry p)).role = if s.closureOk p then .bypassed else .failed := by
  simp only [compactedEntry, hi]

/-- R18: what a trip makes of an ISOLATING cell. -/
theorem requestTrip_role_of_isolating (hm : s.mode = .run) (hi : (s.entry p).role = .isolating) (r : TripRequest) :
    ((s.requestTrip r).entry p).role = if s.closureOk p then .bypassed else .failed := by
  rw [requestTrip_of_run hm, departRun_role]
  exact compactedEntry_role_of_isolating (s := s.writeLog _) hi

end State

theorem keepSixteen_getLast? (l : List LogRecord) (r : LogRecord) : (keepSixteen (l ++ [r])).getLast? = some r := by
  rw [keepSixteen, List.getLast?_drop, if_neg (by simp), List.getLast?_append]
  rfl

namespace State

variable {s : State}

/-- R39: the context that the deferred cells push together. -/
theorem deferred_push (s : State) (ps : List Port) (gap : Nat) :
    let v := ps.foldl makeIsolating s
    let t := v.push .remap gap none
    t.mode = s.mode ∧ t.log = s.log ∧ t.ctu.windowStart = none ∧
      t.rsq = { s.rsq with
        stage := .inhibit, inhibitCount := 0, restartNumber := s.rsq.restartNumber + 1, gapCount := gap
        grantPending := false, resumeIndex := 0, rampGain := 1024
        nest := s.rsq.nest ++ [{ restartNumber := s.rsq.restartNumber + 1, interrupted := .remap, deficits := t.deficits
                                 motion := s.cli.motion, gapCount := gap, policy := none }] } ∧
      (∀ p, t.link p = { s.link p with transmit := if (s.link p).state.sends
        then (s.link p).transmit ++ [s.urgentFrame p .block] else (s.link p).transmit }) ∧
      (∀ p, t.entry p = v.entry p) ∧ t.bau = v.bau ∧
      t = { v with rsq := t.rsq, links := t.links, ctu := { v.ctu with windowStart := none }, ps := t.ps } := by
  intro v t
  have hv : v = _ := foldl_makeIsolating_eq ps s
  have hentry : ∀ p, v.entry p = _ := foldl_makeIsolating_entry ps s
  have ht : t = _ := push_eq v .remap gap none
  have hrsq : t.rsq = _ := push_rsq v .remap gap none
  have hlink (p : Port) : t.link p = _ := push_link v .remap gap none p
  have hvkept : v.mode = s.mode ∧ v.rsq = s.rsq ∧ v.log = s.log ∧ v.links = s.links ∧ v.ctu = s.ctu ∧ v.cli = s.cli := by
    rw [hv]
    exact ⟨rfl, rfl, rfl, rfl, rfl, rfl⟩
  clear_value t v
  obtain ⟨hvmode, hvrsq, hvlog, hvlinks, hvctu, hvcli⟩ := hvkept
  have hroster : t.roster = v.roster := by rw [ht]
  have hdeficits : v.deficits = t.deficits := deficits_congr (samePlaces_of_roster hroster.symm) (by rw [ht])
  have horder (p : Port) : (v.entry p).bypassOrder = (s.entry p).bypassOrder := by
    rw [hentry]
    split <;> rfl
  have hframe (p : Port) : v.urgentFrame p .block = s.urgentFrame p .block := by
    simp only [urgentFrame, tag, horder, hvctu]
  refine ⟨by rw [ht, hvmode], by rw [ht, hvlog], by rw [ht], ?_, fun p => ?_, fun p => by simp only [entry, hroster],
    by rw [ht], by rw [ht]⟩
  · rw [hrsq, hdeficits]
    simp only [hvrsq, hvcli]
  · have hvlink : v.link p = s.link p := by simp only [link, hvlinks]
    rw [hlink, urgentBlock_link, hframe, hvlink]

/-- R18, R39, R42, R44: the trip that the deferred cells ask for together. -/
theorem deferred_trip (hm : s.mode = .run) (ps : List Port) (r : TripRequest) :
    let t := (ps.foldl makeIsolating s).requestTrip r
    t.mode = .tripped ∧ t.rsq.restartNumber = s.rsq.restartNumber ∧
      t.log.records.getLast? = some (LogRecord.mk s.log.next s.ctu.counter r.port r.cause r.word .run s.rsq.stage
        s.rsq.restartNumber s.rsq.nest.length r.deficits) ∧
      ∀ p ∈ ps, (t.entry p).role = if s.closureOk p then .bypassed else .failed := by
  intro t
  have hv := foldl_makeIsolating_eq ps s
  have hentry := foldl_makeIsolating_entry ps s
  have ht : t = (ps.foldl makeIsolating s).requestTrip r := rfl
  clear_value t
  subst ht
  generalize ps.foldl makeIsolating s = v at hv hentry
  have hvkept : v.mode = .run ∧ v.rsq = s.rsq ∧ v.log = s.log ∧ v.ctu = s.ctu ∧ v.bau.queue = s.bau.queue := by
    rw [hv]
    exact ⟨hm, rfl, rfl, rfl, rfl⟩
  obtain ⟨hvmode, hvrsq, hvlog, hvctu, hvqueue⟩ := hvkept
  obtain ⟨htripped, -⟩ := requestTrip_blocks hvmode r
  refine ⟨htripped, ?_, ?_, fun p hp => ?_⟩
  · rw [(requestTrip_rsq_kept v r).2, hvrsq]
  · rw [requestTrip_record hvmode r, keepSixteen_getLast?, hvrsq, hvlog, hvctu]
  · have hisolating : v.entry p = { s.entry p with role := .isolating, deferred := false } := by rw [hentry, if_pos hp]
    rw [requestTrip_role_of_isolating hvmode (by rw [hisolating])]
    congr 2
    simp only [closureOk, closureConfirmed, hisolating, queued, hvqueue]

end State

open State in
/-- Settles O52: the part rebuilt and recovered, and the outcomes of the lookup. -/
theorem remapCompletes : Obligations.RemapCompletes := by
  unfold Obligations.RemapCompletes
  intro s hreset u
  have hu : s.openPeriod.prepare .sequencer = u := rfl
  clear_value u
  intro hx hm hs hn hb r bank found deferred lost replaces place record marks w
  have hw : u.remapped = w := remapped_eq hn
  have hexec : exec .remapCompletion s = .next (u.taking .sequencer).counted.remapCompletion := by
    have hgap : (u.taking .sequencer).GapStage := .inr (.inr (.inl hs))
    have hwithin : (u.taking .sequencer).Within := fun _ => hb
    have hends : u.remapEnds = true := progressesIn_iff.mpr ⟨hm, hs, not_gapExpires_of_within (s := u) hgap hwithin⟩
    rw [exec, execRemapCompletion, unlessHeld_of_running hreset, sequencerEvent (hu.symm ▸ hx) (hu.symm ▸ hends), hu,
      sequencerStep_counted (s := u.taking .sequencer) hm hgap hwithin, stageProgress, show (u.taking .sequencer).counted.rsq.stage = .remap from hs]
  have hroster : w.roster = r.roster := rfl
  have hmode : w.mode = .run := hm
  have hqueue : w.bau.queue = r.bau.queue := (rebuild_queue u).symm
  have hnest : w.rsq.nest = u.rsq.nest := rfl
  have hgap : w.rsq.gapCount = u.rsq.gapCount + 1 := rfl
  have hnumber : w.rsq.restartNumber = u.rsq.restartNumber := rfl
  have hblind : w.bau.blindStart = Vector.replicate 24 none := rfl
  have hdeficits : w.deficits = r.deficits :=
    deficits_congr (samePlaces_of_roster rfl) (show u.settings = u.rebuild.settings by rw [u.rebuild_eq])
  have hlookup : w.activeLookup = found := by rw [activeLookup, hdeficits]
  have hbanks : w.rebalActive = bank ∧ w.screenActive = (if marks.screen then u.screenStaged else u.screenActive) ∧
      w.policyActive = (if marks.policy then u.policyStaged else u.policyActive) ∧
      w.mga = { u.mga with recoveryMarks := ⟨false, false, false⟩ } := ⟨rfl, rfl, rfl, rfl⟩
  have hlinks : w.links = u.links := rfl
  have hlog : w.log = u.log := rfl
  have hcli : w.cli.motion = u.cli.motion := by simp only [w]; split <;> rfl
  have hctu : w.ctu = u.ctu := rfl
  have hrsq : w.rsq = { u.rsq with gapCount := u.rsq.gapCount + 1 } := rfl
  clear_value w
  have hentry (p : Port) : w.entry p = r.entry p := by simp only [entry, hroster]
  have hmem (p : Port) : p ∈ w.deferredCells ↔ deferred p := by rw [mem_deferredCells, hentry]
  generalize hv : w.deferredCells.foldl makeIsolating w = v
  have hveq := foldl_makeIsolating_eq w.deferredCells w
  have hventry := foldl_makeIsolating_entry w.deferredCells w
  have hvblind := foldl_makeIsolating_blindStart w.deferredCells w
  rw [hv] at hveq hventry hvblind
  simp only [hmem, hentry, hblind, Vector.getElem_replicate, hctu] at hventry hvblind
  have hnone := remapCompletion_none (s := (u.taking .sequencer).counted)
  have hsome := remapCompletion_some (s := (u.taking .sequencer).counted)
  have hafter := aftermath_remapCompletion (u.taking .sequencer).counted
  rw [← remapped, hw, hlookup] at hnone hsome
  rw [← remapped, hw] at hafter
  generalize (u.taking .sequencer).counted.remapCompletion = t at hexec hnone hsome hafter
  obtain ⟨hkept, hgapkept⟩ := hafter
  have hfixed := hkept.fixed
  simp only [State.fixed, Prod.mk.injEq] at hfixed
  obtain ⟨-, -, hpolicy, -, hrebal, -, -, hscreen, hmga, -, -⟩ := hfixed
  obtain ⟨hwrebal, hwscreen, hwpolicy, hwmga⟩ := hbanks
  refine ⟨t, v, hexec, hveq, fun p => ⟨hventry p, hvblind p⟩, hrebal.trans hwrebal, hscreen.trans hwscreen,
    hpolicy.trans hwpolicy, hmga.trans hwmga, hgapkept.trans hgap, fun hno => ?_, fun hfound hnodefer => ?_,
    fun hfound hdefer policy hpol => ?_, u.rebuild_eq, ?_, ?_, ?_, ?_, ?_, ?_⟩
  · have ht := hnone hno
    obtain ⟨htripped, -⟩ := requestTrip_blocks hmode { cause := .noRebalance, deficits := some w.deficits }
    have hrecord := requestTrip_record hmode { cause := .noRebalance, deficits := some w.deficits }
    rw [hdeficits] at ht htripped hrecord
    refine ⟨ht, by rw [ht, htripped], ?_⟩
    rw [ht, hrecord, keepSixteen_getLast?, hlog, hctu, hrsq]
    simp only [record, hs]
  · have hempty : w.deferredCells = [] := List.eq_nil_iff_forall_not_mem.mpr fun p hp => hnodefer p ((hmem p).mp hp)
    have ht := hsome hfound
    rw [if_pos hempty] at ht
    subst ht
    exact ⟨hmode, hroster, hlog, hlinks, by rw [enterAlign]; simp [hrsq], rfl, rfl⟩
  · have hgoverning : w.governingPolicy = policy := by
      rw [governingPolicy, show w.episodePolicy = u.episodePolicy by simp only [episodePolicy, hnest], hpol, Option.getD_some]
    have hforbid (q : Port) : w.blindForbidden q w.governingPolicy = true ↔ lost q ∧ policy.blindAllowed = false := by
      simp only [blindForbidden, hgoverning, link, hlinks, lost, Bool.and_eq_true, beq_iff_eq, Bool.not_eq_true']
    have hsafe (h : (∀ q, deferred q → ¬ lost q) ∨ policy.blindAllowed = true) :
        ∀ q ∈ w.deferredCells, w.blindForbidden q w.governingPolicy = false := fun q hq => by
      rw [← Bool.not_eq_true, hforbid]
      rintro ⟨hl, hb⟩
      exact h.elim (fun h => h q ((hmem q).mp hq) hl) (fun h => by simp [h] at hb)
    have ht := hsome hfound
    rw [if_neg (fun hempty => by
      obtain ⟨p, hp⟩ := hdefer
      simpa [hempty] using (hmem p).mpr hp)] at ht
    have hpush (hlt : u.rsq.nest.length < policy.maxNest) (h : (∀ q, deferred q → ¬ lost q) ∨ policy.blindAllowed = true) :
        t = v.push .remap (u.rsq.gapCount + 1) none := by
      rw [ht, acceptDeferred_push (hsafe h) (by rwa [hgoverning, hnest]), hv, hgap]
    have hpushed := deferred_push w w.deferredCells (u.rsq.gapCount + 1)
    have htrip := deferred_trip hmode w.deferredCells
    rw [hv] at hpushed htrip
    simp only [hmode, hlog, hrsq, hcli, hctu, hs] at hpushed htrip
    have hframe (p : Port) : w.urgentFrame p .block = u.urgentFrame p .block := by
      have hkept := (u.rebuild_entry_rebuilt p).1
      have horder : (r.entry p).bypassOrder = (u.entry p).bypassOrder := by rw [show r.entry p = _ from hkept]
      simp only [urgentFrame, tag, hentry, horder, hctu]
    have hlink (p : Port) : w.link p = u.link p := by simp only [link, hlinks]
    simp only [hframe, hlink] at hpushed
    refine ⟨fun hlt h => ?_, fun hlt h => ?_, fun p hd hl hlow hb => ?_, fun p hd hlow h hdeep => ?_, fun hm => ?_⟩
    · rw [← hpush hlt h] at hpushed
      obtain ⟨htmode, htlog, hwindow, htrsq, htlink, htentry, htbau, -⟩ := hpushed
      exact ⟨htmode, htlog, hwindow, htrsq, htlink, fun p => ⟨by rw [htentry, hventry], by rw [htbau]; exact hvblind p⟩⟩
    · rw [← hpush hlt h] at hpushed
      obtain ⟨-, -, -, -, -, -, -, ht⟩ := hpushed
      exact ht
    · have htr : t = v.requestTrip { cause := .linkLostNoBlind, port := some p } := by
        rw [ht, acceptDeferred_lost ((hmem p).mpr hd) ((hforbid p).mpr ⟨hl, hb⟩) (fun q hq hqd => ?_), hv]
        rw [← Bool.not_eq_true, hforbid]
        exact fun ⟨hql, _⟩ => hlow q hq ⟨(hmem q).mp hqd, hql⟩
      obtain ⟨htripped, -, hrecord, -⟩ := htrip _
      exact ⟨htr, htr ▸ htripped, htr ▸ hrecord⟩
    · have htr : t = v.requestTrip { cause := .nestLimit, port := some p } := by
        rw [ht, acceptDeferred_deep (hsafe h) (by rwa [hgoverning, hnest]) ((hmem p).mpr hd)
          (fun q hq hqd => hlow q hq ((hmem q).mp hqd)), hv]
      obtain ⟨htripped, -, hrecord, -⟩ := htrip _
      exact ⟨htr, htr ▸ htripped, htr ▸ hrecord⟩
    · obtain ⟨trip, htr⟩ | hpush := w.acceptDeferred_outcome w.deferredCells
      · obtain ⟨-, hrestart, -, hroles⟩ := htrip trip
        rw [ht, htr, hv]
        refine ⟨hrestart, fun p hd => ?_⟩
        have hclosure : w.closureOk p = r.closureOk p := by simp only [closureOk, closureConfirmed, hentry, queued, hqueue]
        rw [hroles p ((hmem p).mpr hd), hclosure]
      · obtain ⟨htmode, -⟩ := hpushed
        rw [ht, hpush, hv, hgap, htmode] at hm
        cases hm
  · intro p
    obtain ⟨hfields, -⟩ := u.rebuild_entry_rebuilt p
    exact hfields
  · intro p
    obtain ⟨-, -, hremoved, hinserted, hkeeps⟩ := u.rebuild_entry_rebuilt p
    split
    · exact hremoved ‹_›
    · split
      · exact hinserted ‹_›
      · exact hkeeps ‹_› ‹_›
  · intro p
    obtain ⟨-, htarget, -⟩ := u.rebuild_entry_rebuilt p
    exact htarget
  · exact fun x p => mem_rebuild_phaseString
  · exact u.rebuild_phaseString_pairwise
  · exact u.rebuild_numbered

end Sys2Proof.Machine

/-! ### What only its own step changes at a period start -/

namespace Sys2Proof.Machine

namespace State

variable {s t : State}

/-- What stands until its own step of a period start is taken, and after it: the course of the period start, the clamp
flags, the supply, the control link but for its flags, the leak count with the latches handed over, the request
buffers, and the clock. -/
def course (s : State) : (Bool × List PsStep × List Port × Vector Bool 24 × Stage) × (Bool × Bool) × SupplyHistory ×
    Control × (Nat × List Latch) × Agent × (Nat × Nat × Tri Nat × Period) :=
  ((s.ps.underWay, s.ps.taken, s.ps.judged, s.ps.answered, s.ps.stageEnded),
    (hasFlag s.cli.flags .xformClamp, hasFlag s.cli.flags .cellClamp), s.bau.supply, { s.cli with flags := 0 },
    (s.ssc.leakCount, s.ssc.handed),
    { s.mga with periodMarks := ⟨false, false, false⟩, recoveryMarks := ⟨false, false, false⟩ }, s.ctu.clock)

theorem course_of_roster (s : State) (r : Vector RosterEntry 24) (b : Vector (Option Period) 24) :
    ({ s with roster := r, bau := { s.bau with blindStart := b } } : State).course = s.course := rfl

theorem raise_course {f : Flag} (hx : f ≠ .xformClamp) (hc : f ≠ .cellClamp) : (s.raise f).course = s.course := by
  simp [course, hasFlag_withFlag, hx, hc]

@[simp] theorem writeLog_course (e : LogEntry) : (s.writeLog e).course = s.course :=
  raise_course (s := s.setLog _) (by decide) (by decide)

@[simp] theorem departRun_course (m : Mode) : (s.departRun m).course = s.course := by
  rw [departRun_eq]
  rfl

@[simp] theorem requestTrip_course (r : TripRequest) : (s.requestTrip r).course = s.course := by
  by_cases hm : s.mode = .run
  · rw [requestTrip_of_run hm, departRun_course, writeLog_course]
  · rw [requestTrip_of_not_run hm]

@[simp] theorem updEntry_course (p : Port) (f : RosterEntry → RosterEntry) : (s.updEntry p f).course = s.course := rfl

@[simp] theorem countLatch_course (l : Latch) (m : Mode) (st : Stage) (depth : Nat) :
    (s.countLatch l m st depth).course = s.course := by
  rw [countLatch, writeLog_course, raise_course (by decide) (by decide), updEntry_course]

@[simp] theorem makeIsolating_course (p : Port) : (s.makeIsolating p).course = s.course := rfl

@[simp] theorem push_course (st : Stage) (gap : Nat) (policy : Option PolicyEntry) :
    (s.push st gap policy).course = s.course := by
  rw [push_eq]
  rfl

@[simp] theorem stopSettle_course : s.stopSettle.course = s.course := by
  rw [stopSettle_eq]
  rfl

@[simp] theorem selectSpares_course : s.selectSpares.course = s.course := by
  rw [s.selectSpares_selecting.1.rest]
  rfl

@[simp] theorem reselect_course : s.reselect.course = s.course := by
  rw [reselect]
  split <;> simp

@[simp] theorem mapEntries_course (f : Port → RosterEntry → RosterEntry) : (s.mapEntries f).course = s.course :=
  (congrArg course (s.mapEntries_eq f)).trans (course_of_roster s _ _)

@[simp] theorem renumberPhase_course (x : Phase) : (s.renumberPhase x).course = s.course := mapEntries_course _

@[simp] theorem latchEffect_course (p : Port) : (s.latchEffect p).1.course = s.course := by
  simp only [latchEffect, latchActive, openEpisode, joinRecovery, pushBack, deferLatch, retireSpare]
  repeat' split
  all_goals simp

@[simp] theorem acceptLatch_course (l : Latch) : (s.acceptLatch l).course = s.course := by
  simp only [acceptLatch]
  repeat' split
  all_goals simp

@[simp] theorem takeLatch_course (l : Latch) : (s.takeLatch l).course = s.course := by
  simp only [takeLatch, latchOutsideRun]
  repeat' split
  all_goals simp

theorem foldl_course {α : Type} {f : State → α → State} (hf : ∀ t a, (f t a).course = t.course) (l : List α) :
    (l.foldl f s).course = s.course :=
  foldl_keeps (P := fun t => t.course = s.course) (fun t a h => (hf t a).trans h) l rfl

@[simp] theorem windowStep_course : s.windowStep.course = s.course := by
  have hfail (t : State) (p : Port) : (t.failAlign p).course = t.course := by
    rw [failAlign]
    split <;> simp
  rw [windowStep, foldl_course hfail]
  split
  · rfl
  · exact raise_course (by decide) (by decide)

@[simp] theorem loseCell_course (p : Port) : (s.loseCell p).course = s.course := by
  simp only [loseCell, loseIsolating, deselect]
  repeat' split
  all_goals simp

/-- The judging of a port notes that it has been judged. -/
theorem judgePort_course (p : Port) : (s.judgePort p).course =
    ({ s with ps := { s.ps with judged := p :: s.ps.judged } } : State).course := by
  have hcount : (s.countPort p).course = s.course := by
    rw [countPort]
    repeat' split
    all_goals rfl
  have hdrop (t : State) : (t.dropWaiting p).course = t.course := rfl
  have hlink (t : State) (f : Link → Link) : (t.updLink p f).course = t.course := rfl
  have hjudged (t u : State) (h : t.course = u.course) : (t.updPs (fun q => { q with judged := p :: q.judged })).course =
      (u.updPs (fun q => { q with judged := p :: q.judged })).course := by
    simp only [course, updPs, Prod.mk.injEq] at h ⊢
    tauto
  simp only [judgePort, enterLost]
  split
  · rw [loseCell_course, hdrop, updEntry_course, raise_course (by decide) (by decide), hlink]
    exact hjudged _ _ hcount
  · exact hjudged _ _ hcount

@[simp] theorem failStep_course : s.failStep.course = s.course := by
  have hretry (t : State) (p : Port) : (t.retryNext p).course = t.course := rfl
  have hdrop (t : State) : t.dropHead.course = t.course := rfl
  have hset (t : State) (p : Port) (on : Bool) : (t.setRetry p on).course = t.course := rfl
  have hclose (t : State) (p : Port) : (t.closeFailed p).course = t.course := by
    rw [closeFailed]
    split <;> simp [raise_course]
  have hopen (t : State) (p : Port) : (t.openFailed p).course = t.course := by
    simp only [openFailed]
    repeat' split
    · exact (writeLog_course _).trans (raise_course (by decide) (by decide))
    · rw [hretry, raise_course (by decide) (by decide)]
    · exact raise_course (by decide) (by decide)
  rw [failStep]
  repeat' split
  all_goals simp [hretry, hdrop, hset, hclose, hopen]

@[simp] theorem selectStep_course : s.selectStep.course = s.course := by
  rw [selectStep]
  split
  · exact reselect_course
  · rfl

@[simp] theorem deemStep_course : s.deemStep.course = s.course := by
  refine foldl_course (fun t p => ?_) _
  rw [deemClosed]
  split <;> rfl

@[simp] theorem settleStep_course : s.settleStep.course = s.course := by
  rw [settleStep]
  repeat' split
  all_goals rfl

@[simp] theorem gapStep_course : s.gapStep.course = s.course := by
  rw [gapStep]
  split <;> rfl

theorem copyBanks_course (gs : List Group) : (s.copyBanks gs).course = s.course := by
  have hxform : hasFlag (withFlagIf s.cli.flags (!gs.isEmpty) .commitApplied) .xformClamp = hasFlag s.cli.flags .xformClamp := by
    cases gs <;> simp [withFlagIf, hasFlag_withFlag]
  have hcell : hasFlag (withFlagIf s.cli.flags (!gs.isEmpty) .commitApplied) .cellClamp = hasFlag s.cli.flags .cellClamp := by
    cases gs <;> simp [withFlagIf, hasFlag_withFlag]
  rw [copyBanks_eq]
  simp only [course, hxform, hcell]
  split <;> rfl

theorem applyRecovery_course : s.applyRecovery.course = s.course := by
  rw [applyRecovery]
  exact copyBanks_course _

theorem remapCompletion_course : s.remapCompletion.course = s.course := by
  have hrebuild : s.rebuild.course = s.course := (congrArg course s.rebuild_eq).trans (course_of_roster s _ _)
  have hready : s.rebuild.applyRecovery.course = s.course := applyRecovery_course.trans hrebuild
  have hisolating (t : State) (ps : List Port) : (ps.foldl makeIsolating t).course = t.course :=
    foldl_course (fun _ _ => makeIsolating_course _) ps
  have halign (t : State) : t.enterAlign.course = t.course := rfl
  simp only [remapCompletion, acceptDeferred]
  repeat' split
  all_goals simp [hready, hisolating, halign]

theorem stageProgress_course : s.stageProgress.course = s.course := by
  have hrsq (t : State) (f : Sequencer → Sequencer) : (t.updRsq f).course = t.course := rfl
  have hbau (t : State) : (t.updBau (fun b => { b with settleCount := 0 })).course = t.course := rfl
  have hclose (t : State) : t.closeWindow.course = t.course := rfl
  simp only [stageProgress, inhibitProgress, enterIsolate, enterRemap, enterAwaitGrant, enterResume, resumeProgress, endResume]
  repeat' split
  all_goals simp [hrsq, hbau, hclose, remapCompletion_course]

@[simp] theorem sequencerStep_course : s.sequencerStep.course = s.course := by
  rw [sequencerStep]
  repeat' split
  all_goals simp [stageProgress_course]

@[simp] theorem commitStep_course : s.commitStep.course = s.course := by
  rw [commitStep]
  split
  · refine (?_ : (State.raiseIf _ _ _).course = s.course)
    rw [raiseIf]
    split
    · rw [raise_course (by decide) (by decide), copyBanks_course]
    · exact copyBanks_course _
  · rfl

@[simp] theorem reconcileStep_course : s.reconcileStep.course = s.course := rfl

@[simp] theorem issueStep_course : s.issueStep.course = s.course := by
  rw [issueStep]
  split <;> rfl

@[simp] theorem planStep_course : s.planStep.course = s.course := by simp [course]

@[simp] theorem composeStep_course : s.composeStep.course = s.course := by simp [course]

theorem supplyStep_course : s.supplyStep.course =
    ({ s with bau := { s.bau with supply := s.bau.supply.sample s.lines.bypassSupplyOk } } : State).course := rfl

theorem holdStep_course : s.holdStep.course = ({ s with cli := { s.cli with holdCount := s.holdAfter } } : State).course := by
  simp only [holdStep]
  split
  · rw [requestTrip_course]
    rfl
  · rfl

theorem referenceStep_course : s.referenceStep.course = ({ s with cli := { s.cli with current := none } } : State).course := by
  rw [referenceStep]
  split
  · rfl
  · rename_i hnone
    rw [show ({ s.cli with current := none } : Control) = s.cli by rw [← hnone]]
    rfl

theorem linksStep_course : ∃ judged,
    s.linksStep.course = ({ s with ps := { s.ps with judged := judged } } : State).course := by
  refine foldl_keeps (P := fun t => ∃ judged, t.course = ({ s with ps := { s.ps with judged := judged } } : State).course)
    (fun t p ⟨judged, h⟩ => ⟨p :: judged, ?_⟩) _ ⟨s.ps.judged, rfl⟩
  rw [judgePort_course]
  simp only [course, Prod.mk.injEq] at h ⊢
  obtain ⟨⟨hway, htaken, hjudged, hanswered, hstage⟩, hrest⟩ := h
  exact ⟨⟨hway, htaken, by rw [hjudged], hanswered, hstage⟩, hrest⟩

theorem leakStep_course : s.leakStep.course = ({ s with ssc := { s.ssc with
    leakCount := if s.settings.leakInterval ≤ s.ssc.leakCount + 1 then 0 else s.ssc.leakCount + 1 } } : State).course := by
  rw [leakStep, leakDue]
  simp only [decide_eq_true_eq]
  split
  · exact mapEntries_course _
  · rfl

theorem computeStep_cli (s : State) : s.computeStep.cli = { s.cli with flags := s.computeStep.cli.flags } := by
  simp only [computeStep]
  repeat' split
  · rw [raiseIf_eq, raiseIf_eq]
    rfl
  · rfl
  · rfl

theorem computeStep_course :
    s.computeStep.course = ({ s with cli := { s.cli with flags := s.computeStep.cli.flags } } : State).course := by
  rw [← s.computeStep_cli]
  simp [course]

/-- The steps whose share changes what `course` says: each is one value's own step. -/
def ownSteps : List PsStep := [.supply, .hold, .reference, .links, .leak, .compute]

/-- Every other step leaves the course as it is. -/
theorem runStep_course {x : PsStep} (hx : x ∉ ownSteps) : (s.runStep x).course = s.course := by
  cases x <;> simp [ownSteps] at hx
  all_goals simp [runStep]

end State
end Sys2Proof.Machine

/-! ### The states that a period start passes through (R52, R94) -/

namespace Sys2Proof

namespace PsStep

/-- The steps that have been taken at a period start before a step is, in whatever order it is taken. -/
def needs : PsStep → List PsStep
  | .supply | .hold | .links | .window | .leak | .sequencer => []
  | .reference => [.hold]
  | .fail => [.supply]
  | .select | .deem => [.supply, .fail]
  | .reconcile => [.supply, .fail, .deem]
  | .settle => [.supply, .fail, .select, .deem, .reconcile]
  | .commit => [.supply, .hold, .fail, .sequencer, .window]
  | .compute => [.supply, .hold, .fail, .sequencer, .window, .reference, .links]
  | .issue => [.hold, .supply, .fail, .select, .deem, .reconcile, .settle, .sequencer, .window]
  | .plan => [.hold, .supply, .fail, .select, .deem, .reconcile, .settle, .sequencer, .links, .window]
  | .compose => [.hold, .reference, .supply, .fail, .select, .deem, .reconcile, .settle, .sequencer, .links, .window,
      .compute, .issue, .plan]

/-- Every step of a list finds what it needs among the steps done before it. -/
def follows : List PsStep → List PsStep → Bool
  | _, [] => true
  | done, x :: l => (needs x).all done.contains && follows (x :: done) l

end PsStep

namespace Machine

namespace State

variable {s t : State} {x : PsStep} {may : List PsStep → PsStep → Prop}

/-- The states that a period start passes through from one on, each step being taken where `may` lets it. -/
inductive Reached (may : List PsStep → PsStep → Prop) (s : State) : State → Prop where
  | start : Reached may s s
  | step {t : State} {x : PsStep} : Reached may s t → x ∉ t.ps.taken → x.needs ⊆ t.ps.taken → may t.ps.taken x →
      Reached may s ((t.taking x).runStep x)

/-- Whatever order is named, a step is put behind what it needs. -/
theorem before_follows (s : State) (x : PsStep) :
    PsStep.follows [] (s.before x) = true ∧ ∀ y ∈ x.needs, y ∈ s.before x := by
  by_cases hi : s.ps.stageEnded = .isolate <;> cases hm : s.tripsMeet <;> cases x <;>
    simp [before, modeSteps, coreSteps, beforeSequencer, bypassSteps, hi, hm, PsStep.follows, PsStep.needs]

/-- What the course is once some steps have been taken: each value's own step has been, or it stands as it did. -/
structure CourseAt (s t : State) : Prop where
  underWay : t.ps.underWay = s.ps.underWay
  answered : t.ps.answered = s.ps.answered
  stageEnded : t.ps.stageEnded = s.ps.stageEnded
  judged : .links ∉ t.ps.taken → t.ps.judged = s.ps.judged
  clamps : .compute ∉ t.ps.taken → hasFlag t.cli.flags .xformClamp = hasFlag s.cli.flags .xformClamp ∧
    hasFlag t.cli.flags .cellClamp = hasFlag s.cli.flags .cellClamp
  supply : t.bau.supply = if .supply ∈ t.ps.taken then s.bau.supply.sample s.lines.bypassSupplyOk else s.bau.supply
  cli : t.cli = { s.cli with
    flags := t.cli.flags, current := if .reference ∈ t.ps.taken then none else s.cli.current
    holdCount := if .hold ∈ t.ps.taken then s.holdAfter else s.cli.holdCount }
  leak : t.ssc.leakCount = if .leak ∈ t.ps.taken then
    (if s.settings.leakInterval ≤ s.ssc.leakCount + 1 then 0 else s.ssc.leakCount + 1) else s.ssc.leakCount
  handed : t.ssc.handed = s.ssc.handed
  mga : t.mga = { s.mga with periodMarks := t.mga.periodMarks, recoveryMarks := t.mga.recoveryMarks }
  clock : t.ctu.clock = s.ctu.clock
  settings : t.settings = s.settings
  lines : t.lines = s.lines

theorem CourseAt.congr {u : State} (h : CourseAt s t) (hu : u.course = t.course) (hs : u.settings = t.settings)
    (hl : u.lines = t.lines) : CourseAt s u := by
  simp only [course, Prod.mk.injEq] at hu
  obtain ⟨⟨hway, htaken, hjudged, hanswered, hstage⟩, ⟨hx, hc⟩, hsupply, hcli, ⟨hleak, hhanded⟩, hmga, hclock⟩ := hu
  have hcli' : u.cli = { t.cli with flags := u.cli.flags } := by
    have h := congrArg (fun c : Control => { c with flags := u.cli.flags }) hcli
    exact h
  have hmga' : u.mga = { t.mga with periodMarks := u.mga.periodMarks, recoveryMarks := u.mga.recoveryMarks } := by
    have h := congrArg (fun m : Agent => { m with periodMarks := u.mga.periodMarks, recoveryMarks := u.mga.recoveryMarks }) hmga
    exact h
  exact {
    underWay := hway.trans h.underWay
    answered := hanswered.trans h.answered
    stageEnded := hstage.trans h.stageEnded
    judged := fun hn => hjudged.trans (h.judged (htaken ▸ hn))
    clamps := fun hn => ⟨hx.trans (h.clamps (htaken ▸ hn)).1, hc.trans (h.clamps (htaken ▸ hn)).2⟩
    supply := by rw [hsupply, h.supply, htaken]
    cli := by
      rw [hcli', htaken]
      have hcli := h.cli
      rw [hcli]
    leak := by rw [hleak, h.leak, htaken]
    handed := hhanded.trans h.handed
    mga := by
      rw [hmga']
      have hmga := h.mga
      rw [hmga]
    clock := hclock.trans h.clock
    settings := hs.trans h.settings
    lines := hl.trans h.lines }

theorem CourseAt.refl (hn : s.ps.taken = []) : CourseAt s s := by
  constructor <;> simp [hn]

theorem CourseAt.taking (h : CourseAt s t) (hx : x ∉ ownSteps) : CourseAt s (t.taking x) := by
  simp only [ownSteps, List.mem_cons, List.not_mem_nil, or_false, not_or, ← ne_eq] at hx
  obtain ⟨hsupply, hhold, hreference, hlinks, hleak, hcompute⟩ := hx
  exact {
    underWay := h.underWay
    answered := h.answered
    stageEnded := h.stageEnded
    judged := fun hn => h.judged (fun hm => hn (List.mem_cons_of_mem _ hm))
    clamps := fun hn => h.clamps (fun hm => hn (List.mem_cons_of_mem _ hm))
    supply := by simpa [State.taking, hsupply.symm] using h.supply
    cli := by simpa [State.taking, hreference.symm, hhold.symm] using h.cli
    leak := by simpa [State.taking, hleak.symm] using h.leak
    handed := h.handed
    mga := h.mga
    clock := h.clock
    settings := h.settings
    lines := h.lines }

theorem CourseAt.takeSupply (h : CourseAt s t) (hn : .supply ∉ t.ps.taken) : CourseAt s (t.taking .supply).supplyStep where
  underWay := h.underWay
  answered := h.answered
  stageEnded := h.stageEnded
  judged hn := h.judged (fun hm => hn (List.mem_cons_of_mem _ hm))
  clamps hn := h.clamps (fun hm => hn (List.mem_cons_of_mem _ hm))
  supply := by simp [State.taking, supplyStep, h.supply, hn, h.lines]
  cli := by simpa [State.taking, supplyStep] using h.cli
  leak := by simpa [State.taking, supplyStep] using h.leak
  handed := h.handed
  mga := h.mga
  clock := h.clock
  settings := h.settings
  lines := h.lines

theorem CourseAt.takeHold (h : CourseAt s t) (hn : .hold ∉ t.ps.taken) (hr : .reference ∉ t.ps.taken) :
    CourseAt s ({ t.taking .hold with cli := { t.cli with holdCount := t.holdAfter } } : State) where
  underWay := h.underWay
  answered := h.answered
  stageEnded := h.stageEnded
  judged hn := h.judged (fun hm => hn (List.mem_cons_of_mem _ hm))
  clamps hn := h.clamps (fun hm => hn (List.mem_cons_of_mem _ hm))
  supply := by simpa [State.taking] using h.supply
  cli := by
    have hcli := h.cli
    rw [if_neg hr, if_neg hn] at hcli
    have hafter : t.holdAfter = s.holdAfter := by rw [holdAfter, hcli, h.settings]; rfl
    simp only [State.taking, hafter, List.mem_cons_self, if_true, List.mem_cons, hr, reduceCtorEq, or_false, if_false]
    rw [hcli]
  leak := by simpa [State.taking] using h.leak
  handed := h.handed
  mga := h.mga
  clock := h.clock
  settings := h.settings
  lines := h.lines

theorem CourseAt.takeReference (h : CourseAt s t) :
    CourseAt s ({ t.taking .reference with cli := { t.cli with current := none } } : State) where
  underWay := h.underWay
  answered := h.answered
  stageEnded := h.stageEnded
  judged hn := h.judged (fun hm => hn (List.mem_cons_of_mem _ hm))
  clamps hn := h.clamps (fun hm => hn (List.mem_cons_of_mem _ hm))
  supply := by simpa [State.taking] using h.supply
  cli := by
    have hcli := h.cli
    simp only [State.taking, List.mem_cons_self, if_true, List.mem_cons, reduceCtorEq, false_or]
    rw [hcli]
  leak := by simpa [State.taking] using h.leak
  handed := h.handed
  mga := h.mga
  clock := h.clock
  settings := h.settings
  lines := h.lines

theorem CourseAt.takeLinks (h : CourseAt s t) (judged : List Port) :
    CourseAt s ({ t.taking .links with ps := { (t.taking .links).ps with judged := judged } } : State) where
  underWay := h.underWay
  answered := h.answered
  stageEnded := h.stageEnded
  judged hn := absurd (List.mem_cons_self ..) hn
  clamps hn := h.clamps (fun hm => hn (List.mem_cons_of_mem _ hm))
  supply := by simpa [State.taking] using h.supply
  cli := by simpa [State.taking] using h.cli
  leak := by simpa [State.taking] using h.leak
  handed := h.handed
  mga := h.mga
  clock := h.clock
  settings := h.settings
  lines := h.lines

theorem CourseAt.takeLeak (h : CourseAt s t) (hn : .leak ∉ t.ps.taken) : CourseAt s ({ t.taking .leak with
    ssc := { t.ssc with leakCount :=
      if t.settings.leakInterval ≤ t.ssc.leakCount + 1 then 0 else t.ssc.leakCount + 1 } } : State) where
  underWay := h.underWay
  answered := h.answered
  stageEnded := h.stageEnded
  judged hn := h.judged (fun hm => hn (List.mem_cons_of_mem _ hm))
  clamps hn := h.clamps (fun hm => hn (List.mem_cons_of_mem _ hm))
  supply := by simpa [State.taking] using h.supply
  cli := by simpa [State.taking] using h.cli
  leak := by simp [State.taking, h.leak, hn, h.settings]
  handed := h.handed
  mga := h.mga
  clock := h.clock
  settings := h.settings
  lines := h.lines

theorem CourseAt.takeCompute (h : CourseAt s t) (flags : BitVec 24) :
    CourseAt s ({ t.taking .compute with cli := { t.cli with flags := flags } } : State) where
  underWay := h.underWay
  answered := h.answered
  stageEnded := h.stageEnded
  judged hn := h.judged (fun hm => hn (List.mem_cons_of_mem _ hm))
  clamps hn := absurd (List.mem_cons_self ..) hn
  supply := by simpa [State.taking] using h.supply
  cli := by
    have hcli := h.cli
    simp only [State.taking, List.mem_cons, reduceCtorEq, false_or]
    rw [hcli]
  leak := by simpa [State.taking] using h.leak
  handed := h.handed
  mga := h.mga
  clock := h.clock
  settings := h.settings
  lines := h.lines

/-- One step of a period start, from what stands before it. -/
theorem CourseAt.runStep (h : CourseAt s t) (hn : x ∉ t.ps.taken) (hclosed : .reference ∈ t.ps.taken → .hold ∈ t.ps.taken) :
    CourseAt s ((t.taking x).runStep x) := by
  have hsettings : ((t.taking x).runStep x).settings = (t.taking x).settings := by simp
  have hlines : ((t.taking x).runStep x).lines = (t.taking x).lines := by simp
  by_cases hx : x ∈ ownSteps
  · simp only [ownSteps, List.mem_cons, List.not_mem_nil, or_false] at hx
    rcases hx with rfl | rfl | rfl | rfl | rfl | rfl
    · exact h.takeSupply hn
    · exact (h.takeHold hn (fun hr => hn (hclosed hr))).congr (t.taking .hold).holdStep_course hsettings hlines
    · exact h.takeReference.congr (t.taking .reference).referenceStep_course hsettings hlines
    · obtain ⟨judged, hjudged⟩ := (t.taking .links).linksStep_course
      exact (h.takeLinks judged).congr hjudged hsettings hlines
    · exact (h.takeLeak hn).congr (t.taking .leak).leakStep_course hsettings hlines
    · exact (h.takeCompute _).congr (t.taking .compute).computeStep_course hsettings hlines
  · exact (h.taking hx).congr (runStep_course hx) hsettings hlines

/-- What any step may make of the course: the ports judged, the supply at its own step, the reference, the hold count,
the flags and the leak count. -/
theorem runStep_course_form (s : State) (x : PsStep) : ∃ judged supply current hold flags leak,
    (s.runStep x).course = ({ s with
      ps := { s.ps with judged := judged }, bau := { s.bau with supply := supply }
      cli := { s.cli with current := current, holdCount := hold, flags := flags }
      ssc := { s.ssc with leakCount := leak } } : State).course ∧ (x ≠ .supply → supply = s.bau.supply) := by
  by_cases hx : x ∈ ownSteps
  · simp only [ownSteps, List.mem_cons, List.not_mem_nil, or_false] at hx
    rcases hx with rfl | rfl | rfl | rfl | rfl | rfl
    · exact ⟨_, _, _, _, _, _, supplyStep_course, fun h => absurd rfl h⟩
    · exact ⟨_, _, _, _, _, _, holdStep_course, fun _ => rfl⟩
    · exact ⟨_, _, _, _, _, _, referenceStep_course, fun _ => rfl⟩
    · obtain ⟨judged, h⟩ := s.linksStep_course
      exact ⟨_, _, _, _, _, _, h, fun _ => rfl⟩
    · exact ⟨_, _, _, _, _, _, leakStep_course, fun _ => rfl⟩
    · exact ⟨_, _, _, _, _, _, computeStep_course, fun _ => rfl⟩
  · exact ⟨_, _, _, _, _, _, runStep_course hx, fun _ => rfl⟩

/-- The bookkeeping of a period start, and the frames to the drive, are none of a step's. -/
theorem runStep_progress (s : State) (x : PsStep) :
    (s.runStep x).ps.underWay = s.ps.underWay ∧ (s.runStep x).ps.taken = s.ps.taken ∧
      (s.runStep x).cli.upstream = s.cli.upstream ∧ (s.runStep x).cli.reported = s.cli.reported ∧
      (x ≠ .supply → (s.runStep x).bau.supply = s.bau.supply) := by
  obtain ⟨judged, supply, current, hold, flags, leak, h, hsupply⟩ := s.runStep_course_form x
  simp only [course, Prod.mk.injEq, Control.mk.injEq] at h
  obtain ⟨⟨hway, htaken, -⟩, -, hsup, ⟨-, -, -, -, -, hreported, hupstream⟩, -⟩ := h
  exact ⟨hway, htaken, hupstream, hreported, fun hx => hsup.trans (hsupply hx)⟩

theorem taking_runStep_taken (s : State) (x : PsStep) : ((s.taking x).runStep x).ps.taken = x :: s.ps.taken :=
  (runStep_progress _ x).2.1

theorem Reached.underWay (h : Reached may s t) : t.ps.underWay = s.ps.underWay := by
  induction h with
  | start => rfl
  | step _ _ _ _ ih => exact (runStep_progress _ _).1.trans ih

/-- What the rules put before the steps taken has been taken. -/
theorem Reached.closed (h : Reached may s t) (hn : s.ps.taken = []) : ∀ x ∈ t.ps.taken, ∀ y ∈ x.needs, y ∈ t.ps.taken := by
  induction h with
  | start => simp [hn]
  | step _ _ hneeds _ ih =>
    intro y hy z hz
    rw [taking_runStep_taken] at hy ⊢
    obtain rfl | hy := List.mem_cons.mp hy
    · exact List.mem_cons_of_mem _ (hneeds hz)
    · exact List.mem_cons_of_mem _ (ih y hy z hz)

theorem Reached.courseAt (h : Reached may s t) (hn : s.ps.taken = []) : CourseAt s t := by
  induction h with
  | start => exact CourseAt.refl hn
  | step hr hx _ _ ih => exact ih.runStep hx (fun hm => hr.closed hn _ hm _ (by simp [PsStep.needs]))

/-- A list of steps of which each finds what it needs before it. -/
theorem Reached.foldl_takeOne (h : Reached may s t) {l done : List PsStep} (hl : PsStep.follows done l = true)
    (hdone : ∀ y ∈ done, y ∈ t.ps.taken) (hmay : ∀ y ∈ l, ∀ T, (∀ z ∈ t.ps.taken, z ∈ T) → may T y) :
    Reached may s (l.foldl takeOne t) ∧ (∀ y ∈ l, y ∈ (l.foldl takeOne t).ps.taken) ∧
      ∀ y ∈ t.ps.taken, y ∈ (l.foldl takeOne t).ps.taken := by
  induction l generalizing t done with
  | nil => exact ⟨h, by simp, by simp⟩
  | cons x l ih =>
    simp only [PsStep.follows, Bool.and_eq_true, List.all_eq_true, List.contains_iff_mem] at hl
    obtain ⟨hneeds, hfollows⟩ := hl
    have hone : Reached may s (t.takeOne x) ∧ ∀ z, z ∈ (t.takeOne x).ps.taken ↔ z = x ∨ z ∈ t.ps.taken := by
      by_cases hx : x ∈ t.ps.taken
      · have hsame : t.takeOne x = t := by simp [takeOne, hx]
        rw [hsame]
        exact ⟨h, fun z => ⟨.inr, fun hz => hz.elim (fun hz => hz ▸ hx) id⟩⟩
      · rw [takeOne_of_not_taken hx]
        refine ⟨h.step hx (fun y hy => hdone y (hneeds y hy)) (hmay x (List.mem_cons_self ..) _ fun _ hz => hz), fun z => ?_⟩
        rw [taking_runStep_taken, List.mem_cons]
    obtain ⟨hreached, htaken⟩ := hone
    obtain ⟨hlast, hall, hkept⟩ := ih hreached (done := x :: done) hfollows
      (fun y hy => (htaken y).mpr ((List.mem_cons.mp hy).imp_right (hdone y)))
      (fun y hy T hT => hmay y (List.mem_cons_of_mem _ hy) T fun z hz => hT z ((htaken z).mpr (.inr hz)))
    refine ⟨hlast, fun y hy => ?_, fun y hy => hkept y ((htaken y).mpr (.inr hy))⟩
    obtain rfl | hy := List.mem_cons.mp hy
    · exact hkept _ ((htaken _).mpr (.inl rfl))
    · exact hall y hy

/-- A step put behind what the rules put before it, and behind the loss of a port where that comes first. -/
theorem Reached.takeStep (h : Reached may s t) {x : PsStep}
    (hmay : ∀ y ∈ t.before x ++ [.links, x], ∀ T, (∀ z ∈ t.ps.taken, z ∈ T) → may T y) :
    Reached may s (t.takeStep x) ∧ x ∈ (t.takeStep x).ps.taken ∧ ∀ y ∈ t.ps.taken, y ∈ (t.takeStep x).ps.taken := by
  obtain ⟨hfollows, hneeds⟩ := t.before_follows x
  obtain ⟨hready, hbefore, hkept⟩ := h.foldl_takeOne hfollows (by simp)
    (fun y hy T hT => hmay y (List.mem_append_left _ hy) T hT)
  have hprepared : Reached may s (t.prepare x) ∧ (∀ y ∈ x.needs, y ∈ (t.prepare x).ps.taken) ∧
      ∀ y ∈ t.ps.taken, y ∈ (t.prepare x).ps.taken := by
    simp only [prepare]
    split
    · obtain ⟨hlinks, -, hafter⟩ := hready.foldl_takeOne (l := [.links]) (done := []) rfl (by simp)
        (fun y hy T hT => hmay y (by simp_all) T fun z hz => hT z (hkept z hz))
      exact ⟨hlinks, fun y hy => hafter y (hbefore y (hneeds y hy)), fun y hy => hafter y (hkept y hy)⟩
    · exact ⟨hready, fun y hy => hbefore y (hneeds y hy), hkept⟩
  obtain ⟨hprepared, hneeded, hthere⟩ := hprepared
  obtain ⟨hlast, hx, hafter⟩ := hprepared.foldl_takeOne (l := [x]) (done := x.needs)
    (by simp [PsStep.follows]) hneeded (fun y hy T hT => hmay y (by simp_all) T fun z hz => hT z (hthere z hz))
  exact ⟨hlast, hx x (by simp), fun y hy => hafter y (hthere y hy)⟩

theorem Reached.foldl_takeStep (h : Reached may s t) (l : List PsStep)
    (hmay : ∀ u : State, (∀ z ∈ t.ps.taken, z ∈ u.ps.taken) → ∀ x ∈ l, ∀ y ∈ u.before x ++ [.links, x],
      ∀ T, (∀ z ∈ u.ps.taken, z ∈ T) → may T y) :
    Reached may s (l.foldl State.takeStep t) ∧ (∀ x ∈ l, x ∈ (l.foldl State.takeStep t).ps.taken) ∧
      ∀ y ∈ t.ps.taken, y ∈ (l.foldl State.takeStep t).ps.taken := by
  induction l generalizing t with
  | nil => exact ⟨h, by simp, by simp⟩
  | cons x l ih =>
    obtain ⟨hone, hx, hkept⟩ := h.takeStep (x := x) (hmay t (fun _ hz => hz) x (List.mem_cons_self ..))
    obtain ⟨hlast, hall, hafter⟩ := ih hone fun u hu y hy =>
      hmay u (fun z hz => hu z (hkept z hz)) y (List.mem_cons_of_mem _ hy)
    refine ⟨hlast, fun y hy => ?_, fun y hy => hafter y (hkept y hy)⟩
    obtain rfl | hy := List.mem_cons.mp hy
    · exact hafter _ hx
    · exact hall y hy

theorem mem_defaultOrder (x : PsStep) : x ∈ defaultOrder := by cases x <;> simp [defaultOrder]

theorem takeHanded_nil (h : s.ssc.handed = []) : s.takeHanded = s := by
  rw [← s.withHanded_nil h, takeHanded_withHanded, List.foldl_nil]

/-- The part when a period start has begun and before any step of it is taken. -/
def periodBegun (s : State) (ok : Bool) : State := s.sendDue.enterPeriod.setSupply ok

/-- The part when every step of a period start has been taken. -/
def periodEnd (s : State) (ok : Bool) (order : List PsStep) : State :=
  defaultOrder.foldl State.takeStep (order.foldl State.takeStep (s.periodBegun ok))

theorem Settled.sendDue_handed (h : s.Settled) : s.sendDue.ssc.handed = [] := by
  rw [← s.withHanded_nil h.taken, sendDue_withHanded]
  rfl

theorem Settled.periodBegun_handed (h : s.Settled) (ok : Bool) : (s.periodBegun ok).ssc.handed = [] := by
  simp [periodBegun, h.sendDue_handed]

theorem periodBegun_taken (s : State) (ok : Bool) : (s.periodBegun ok).ps.taken = [] := rfl

/-- Whatever order is named, every step has been taken at the end. -/
theorem takeSteps_reached (s : State) (order : List PsStep) :
    Reached (fun _ _ => True) s (defaultOrder.foldl State.takeStep (order.foldl State.takeStep s)) ∧
      ∀ x, x ∈ (defaultOrder.foldl State.takeStep (order.foldl State.takeStep s)).ps.taken := by
  obtain ⟨hordered, -⟩ := (Reached.start (may := fun _ _ => True) (s := s)).foldl_takeStep order
    (fun _ _ _ _ _ _ _ _ => trivial)
  obtain ⟨hlast, hall, -⟩ := hordered.foldl_takeStep defaultOrder (fun _ _ _ _ _ _ _ _ => trivial)
  exact ⟨hlast, fun x => hall x (mem_defaultOrder x)⟩

/-- Every period start reaches its end, and every step has been taken then. -/
theorem periodEnd_reached (s : State) (ok : Bool) (order : List PsStep) :
    Reached (fun _ _ => True) (s.periodBegun ok) (s.periodEnd ok order) ∧ ∀ x, x ∈ (s.periodEnd ok order).ps.taken := by
  rw [periodEnd]
  exact takeSteps_reached (s.periodBegun ok) order

/-- A whole period start on a settled part: once every step has been taken nothing is left under way. -/
theorem Settled.exec_periodStart (hs : s.Settled) (ok : Bool) (order : List PsStep) :
    exec (.periodStart ok order) s = .next { s.periodEnd ok order with ps := PeriodProgress.none } := by
  have hopen : s.openPeriod = s.sendDue.enterPeriod := by rw [openPeriod, if_neg (by simp [hs.between])]; rfl
  have hhanded : (s.periodEnd ok order).ssc.handed = [] :=
    ((s.periodEnd_reached ok order).1.courseAt (periodBegun_taken s ok)).handed.trans (hs.periodBegun_handed ok)
  have hnone : ((s.periodEnd ok order).updPs (fun _ => PeriodProgress.none)).ssc.handed = [] := by
    rw [updPs_ssc, hhanded]
  rw [exec, execPeriodStart, unlessHeld_of_running hs.running, periodStart, completePeriod, hopen]
  rw [← periodBegun, ← periodEnd, takeHanded_nil hnone, updPs]

end State
end Machine
end Sys2Proof

/-! ### What every period start does (R53, R77, R94, R118, R141, R144, R146, R147) -/

namespace Sys2Proof

open PsStep

namespace Machine

namespace State

variable {s t : State} {x : PsStep} {may : List PsStep → PsStep → Prop}

/-- How a period start begins: the digest is placed, the cycle starts, and the frames sent have left the lists. -/
theorem begun_eq (b : State) (ok : Bool) : b.enterPeriod.setSupply ok = { b with
    lines := { b.lines with bypassSupplyOk := ok }
    cli := { b.cli with reported := b.cli.flags, flags := 0
                        upstream := b.cli.upstream.filter (fun f => !f.isDigest) ++ [.digest b.digestNow] }
    ctu := { b.ctu with position := 0, counter := b.ctu.counter + 1, pInForce := b.settings.p, bases := b.settings.bases }
    links := (b.enterPeriod.setSupply ok).links
    ps := b.startProgress } := by
  apply eq_of_fields <;> simp [enterPeriod, placeDigest, startCycle, setSupply]

theorem periodBegun_eq (s : State) (ok : Bool) : s.periodBegun ok = { s.sendDue with
    lines := { s.sendDue.lines with bypassSupplyOk := ok }
    cli := { s.sendDue.cli with
      reported := s.sendDue.cli.flags, flags := 0
      upstream := s.sendDue.cli.upstream.filter (fun f => !f.isDigest) ++ [.digest s.sendDue.digestNow] }
    ctu := { s.sendDue.ctu with
      position := 0, counter := s.sendDue.ctu.counter + 1, pInForce := s.sendDue.settings.p
      bases := s.sendDue.settings.bases }
    links := (s.periodBegun ok).links
    ps := s.sendDue.startProgress } := begun_eq s.sendDue ok

theorem runStep_rtu {y : PsStep} (hr : y ≠ .reference) (hc : y ≠ .compute) : (s.runStep y).rtu = s.rtu := by
  cases y <;> simp [runStep] at hr hc ⊢

theorem referenceStep_rtu (s : State) : s.referenceStep.rtu =
    { s.rtu with held := s.cli.current.getD s.rtu.held, fresh := s.cli.current.isSome } := by
  rw [referenceStep]
  split
  · rename_i h
    rw [h]
    rfl
  · rename_i h
    rw [h]
    rfl

theorem computeStep_reference (s : State) : s.computeStep.rtu.held = s.rtu.held ∧ s.computeStep.rtu.fresh = s.rtu.fresh := by
  simp only [computeStep]
  repeat' split
  · rw [raiseIf_eq, raiseIf_eq]
    exact ⟨rfl, rfl⟩
  all_goals exact ⟨rfl, rfl⟩

/-- The reference taken at a period start, and the readout until the computation (R77, R141). -/
structure ReferenceAt (s t : State) : Prop where
  held : t.rtu.held = if .reference ∈ t.ps.taken then s.cli.current.getD s.rtu.held else s.rtu.held
  fresh : t.rtu.fresh = if .reference ∈ t.ps.taken then s.cli.current.isSome else s.rtu.fresh
  readout : .compute ∉ t.ps.taken → t.rtu = { s.rtu with held := t.rtu.held, fresh := t.rtu.fresh }

theorem Reached.referenceAt (h : Reached may s t) (hn : s.ps.taken = []) : ReferenceAt s t := by
  induction h with
  | start => constructor <;> simp [hn]
  | @step t x hr hx _ _ ih =>
    have hcli := (hr.courseAt hn).cli
    have htaken := t.taking_runStep_taken x
    obtain ⟨hheld, hfresh, hreadout⟩ := ih
    by_cases hreference : x = .reference
    · subst hreference
      have hrtu : ((t.taking .reference).runStep .reference).rtu =
          { t.rtu with held := t.cli.current.getD t.rtu.held, fresh := t.cli.current.isSome } :=
        (t.taking .reference).referenceStep_rtu
      rw [if_neg hx] at hheld hfresh hcli
      have hcurrent : t.cli.current = s.cli.current := by rw [hcli]
      refine ⟨by simp [htaken, hrtu, hheld, hcurrent], by simp [htaken, hrtu, hcurrent], fun hc => ?_⟩
      rw [hrtu, hreadout (fun hm => hc (htaken ▸ List.mem_cons_of_mem _ hm))]
    · by_cases hcompute : x = .compute
      · subst hcompute
        obtain ⟨hheld', hfresh'⟩ := (t.taking .compute).computeStep_reference
        exact ⟨by rw [htaken]; simpa [runStep] using hheld'.trans hheld, by rw [htaken]; simpa [runStep] using hfresh'.trans hfresh,
          fun hc => absurd (by simp [htaken]) hc⟩
      · have hrtu : ((t.taking x).runStep x).rtu = t.rtu := runStep_rtu hreference hcompute
        refine ⟨by simpa [htaken, hrtu, Ne.symm hreference] using hheld, by simpa [htaken, hrtu, Ne.symm hreference] using hfresh,
          fun hc => ?_⟩
        rw [hrtu]
        exact hreadout (fun hm => hc (htaken ▸ List.mem_cons_of_mem _ hm))

theorem Reached.quiet {f : Flag} (hf : f ∈ quietFlags) (h : Reached may s t) :
    hasFlag t.cli.flags f = hasFlag s.cli.flags f := by
  induction h with
  | start => rfl
  | step _ _ _ _ ih => exact (runStep_quiet _ hf _).trans ih

theorem Reached.frame (h : Reached may s t) : t.policyStaged = s.policyStaged ∧ t.rebalStaged = s.rebalStaged ∧
    t.screenStaged = s.screenStaged ∧ t.pending = s.pending := by
  induction h with
  | start => exact ⟨rfl, rfl, rfl, rfl⟩
  | step _ _ _ _ ih => simpa [State.taking] using ih

theorem replyEnds_clock (s : State) : s.replyEnds.ctu.clock = s.ctu.clock := by
  obtain h | ⟨b, h⟩ | ⟨-, h⟩ := s.replyEnds_eq <;> simp [h]

theorem sendDue_clock (s : State) : s.sendDue.ctu.clock = s.ctu.clock :=
  foldl_keeps (P := fun t => t.ctu.clock = s.ctu.clock) (fun t _ h => t.replyEnds_clock.trans h) _ rfl

end State

open State in
/-- Settles O20: what a period start begins with, and what each value's own step makes of it. -/
theorem periodStartInEveryOrder : Obligations.PeriodStartInEveryOrder := by
  unfold Obligations.PeriodStartInEveryOrder
  intro ok order s hs b
  have hb : s.sendDue = b := rfl
  have hclock := s.sendDue_clock
  have hlines : b.lines = s.lines := by simp [b]
  have hsettings : b.settings = s.settings := by simp [b]
  have hcounter : b.ctu.counter = s.ctu.counter := Carrier.counter_of_clock hclock
  clear_value b
  obtain ⟨hreached, hall⟩ := s.periodEnd_reached ok order
  have hcourse := hreached.courseAt (periodBegun_taken s ok)
  have hreference := hreached.referenceAt (periodBegun_taken s ok)
  have hquiet := fun f hf => hreached.quiet (f := f) hf
  have hframe := hreached.frame
  have hexec := hs.exec_periodStart ok order
  have hhanded := hs.periodBegun_handed ok
  have hbegun := s.periodBegun_eq ok
  rw [hb] at hbegun
  generalize s.periodEnd ok order = t at hreached hall hcourse hreference hquiet hframe hexec
  generalize s.periodBegun ok = u at hbegun hreached hcourse hreference hquiet hframe hhanded
  obtain ⟨hheld, hfresh, -⟩ := hreference
  obtain ⟨hps, hrs, hss, hpending⟩ := hframe
  have hcli := hcourse.cli
  have hclk := hcourse.clock
  have hleak := hcourse.leak
  have hsupply := hcourse.supply
  rw [if_pos (hall _)] at hheld hfresh hleak hsupply
  rw [if_pos (hall _), if_pos (hall _)] at hcli
  have hposition : t.ctu.position = u.ctu.position := Carrier.position_of_clock hclk
  have hpin : t.ctu.pInForce = u.ctu.pInForce := Carrier.pInForce_of_clock hclk
  have hbases : t.ctu.bases = u.ctu.bases := Carrier.bases_of_clock hclk
  have hcount : t.ctu.counter = u.ctu.counter := Carrier.counter_of_clock hclk
  have hbegunLines : u.lines = { s.lines with bypassSupplyOk := ok } := by rw [hbegun, hlines]
  have hbegunAfter : u.holdAfter = if b.cli.current.isSome then 0 else min s.settings.refHoldLimit (b.cli.holdCount + 1) := by
    rw [holdAfter, hbegun, hsettings]
  have hflag : ∀ f ∈ quietFlags, hasFlag t.cli.flags f = false := fun f hf => by
    rw [hquiet f hf, hbegun]
    simp [hasFlag]
  refine ⟨hlines, hsettings, hcounter, _, hexec, ⟨?_, rfl, ?_⟩, ?_, ?_, ?_, ?_, ?_, ?_, ?_, ?_, ?_, ?_, ?_, ?_, hflag, ?_, ?_, ?_, ?_⟩
  · rw [hcourse.lines, hbegunLines]
    exact hs.running
  · rw [hcourse.handed, hhanded]
  · rw [hcount, hbegun, hcounter]
  · rw [hposition, hbegun]
  · rw [hpin, hbegun, hsettings]
  · rw [hbases, hbegun, hsettings]
  · rw [hcourse.lines, hbegunLines]
  · rw [hsupply, hbegunLines, hbegun]
    rfl
  · rw [hheld, hbegun]
  · rw [hfresh, hbegun]
  · rw [hcli]
  · rw [hcli, hbegunAfter]
  · rw [hleak, hbegun, hsettings]
  · rw [hcli, hbegun]
  · rw [hcli, hbegun, ← hcounter]
    rfl
  · rw [hcli, hbegun]
  · rw [hcli, hbegun]
  · refine eq_of_fields rfl rfl rfl ?_ rfl rfl rfl ?_ rfl rfl rfl ?_ rfl rfl rfl rfl ?_ ?_ rfl rfl ?_
    · rw [hps, hbegun]
    · rw [hrs, hbegun]
    · rw [hss, hbegun]
    · have hmga := hcourse.mga
      rw [hmga, hbegun]
    · rw [hcourse.settings, hbegun]
    · rw [hpending, hbegun]

end Machine
end Sys2Proof

/-! ### RESET_N held low, and a period start taken in parts (R94, R170; logs 1, 2, 22, 25) -/

namespace Sys2Proof.Machine

open Sys2Proof (PsStep)

namespace State

variable {s t u : State} {x : PsStep} {may : List PsStep → PsStep → Prop}

/-- While RESET_N is low no command but those of the pins does anything (R170, log 22). -/
theorem exec_of_held (h : s.lines.resetN = false) {c : Instr} (hp : c ≠ .pinReset) (hr : c ≠ .resetNRise)
    (hf : c ≠ .safetyStopFall) (hrise : c ≠ .safetyStopRise) : exec c s = .next s := by
  have hheld (f : State → State) : (.next (s.unlessHeld f) : Host.Outcome State Fault Refusal) = .next s :=
    congrArg _ (unlessHeld_of_held h f)
  cases c
  case pinReset => exact absurd rfl hp
  case resetNRise => exact absurd rfl hr
  case safetyStopFall => exact absurd rfl hf
  case safetyStopRise => exact absurd rfl hrise
  all_goals exact hheld _

theorem completePeriod_settled (hr : s.lines.resetN = true) : s.completePeriod.Settled where
  running := by simp [hr]
  between := by simp [PeriodProgress.none]
  taken := by rw [completePeriod]; simp

theorem finishPeriod_of_underWay (h : s.ps.underWay = true) : s.finishPeriod = s.completePeriod := if_pos h

/-- What a period start in the order named, from a state with one under way, leaves of clock, lines, upstream list and
supply. -/
structure ClockAt (s t : State) : Prop where
  clock : t.ctu.clock = s.ctu.clock
  lines : t.lines = s.lines
  upstream : t.cli.upstream = s.cli.upstream
  reported : t.cli.reported = s.cli.reported
  supply : t.bau.supply = if .supply ∈ t.ps.taken ∧ .supply ∉ s.ps.taken then
    s.bau.supply.sample s.lines.bypassSupplyOk else s.bau.supply
  kept : ∀ y ∈ s.ps.taken, y ∈ t.ps.taken

theorem Reached.clockAt (h : Reached may s t) : ClockAt s t := by
  induction h with
  | start => constructor <;> simp
  | @step t x _ hx _ _ ih =>
    obtain ⟨-, -, hupstream, hreported, hsupply⟩ := runStep_progress (t.taking x) x
    have htaken := t.taking_runStep_taken x
    have hclock : ((t.taking x).runStep x).ctu.clock = t.ctu.clock := runStep_clock _ x
    have hlines : ((t.taking x).runStep x).lines = t.lines := by simp [State.taking]
    refine ⟨hclock.trans ih.clock, hlines.trans ih.lines, hupstream.trans ih.upstream, hreported.trans ih.reported, ?_,
      fun y hy => by rw [htaken]; exact List.mem_cons_of_mem _ (ih.kept y hy)⟩
    have hsup := ih.supply
    by_cases hs : x = .supply
    · subst hs
      have hnot : .supply ∉ s.ps.taken := fun h => hx (ih.kept _ h)
      rw [if_neg (fun h => hx h.1)] at hsup
      have hsampled : ((t.taking .supply).runStep .supply).bau.supply = t.bau.supply.sample t.lines.bypassSupplyOk := rfl
      rw [htaken, if_pos ⟨List.mem_cons_self .., hnot⟩, hsampled, hsup, ih.lines]
    · rw [hsupply hs, htaken]
      simpa [State.taking, Ne.symm hs] using hsup

theorem takeHanded_course (s : State) :
    s.takeHanded.course = (s.updSsc (fun c => { c with handed := [] })).course :=
  foldl_course (fun _ l => takeLatch_course l) _

theorem setSupply_self {ok : Bool} (h : s.lines.bypassSupplyOk = ok) : s.setSupply ok = s := by
  subst h
  rfl

theorem takeStep_underWay (s : State) (x : PsStep) : (s.takeStep x).ps.underWay = s.ps.underWay :=
  ((Reached.start (may := fun _ _ => True)).takeStep (fun _ _ _ _ => trivial)).1.underWay

/-- The step named, with a period start after it, is one period start with that step named first (logs 1, 2). -/
theorem periodStart_takeStep (s : State) (x : PsStep) (order : List PsStep) :
    (s.openPeriod.takeStep x).ps.underWay = true ∧
      (s.openPeriod.takeStep x).periodStart s.lines.bypassSupplyOk order =
        s.periodStart s.lines.bypassSupplyOk (x :: order) := by
  have hway : (s.openPeriod.takeStep x).ps.underWay = true := (takeStep_underWay _ x).trans s.openPeriod_underWay
  have hopen : s.openPeriod.setSupply s.lines.bypassSupplyOk = s.openPeriod :=
    setSupply_self (by rw [s.openPeriod_lines])
  have htaken : (s.openPeriod.takeStep x).setSupply s.lines.bypassSupplyOk = s.openPeriod.takeStep x :=
    setSupply_self (by rw [(takeStep_frame _ x).1, s.openPeriod_lines])
  refine ⟨hway, ?_⟩
  rw [periodStart, periodStart, openPeriod_of_underWay hway, htaken, hopen, List.foldl_cons]

/-- A step event that changes something is its step, put behind what comes before it. -/
theorem stepEvent_eq_takeStep {cond : State → Bool} (h : s.stepEvent x cond ≠ s) : s.stepEvent x cond = s.openPeriod.takeStep x := by
  simp only [stepEvent] at h ⊢
  split
  · rfl
  · rename_i hc
    rw [if_neg hc] at h
    exact absurd rfl h

theorem issueEvent_eq_takeStep (h : s.issueEvent s.lines.bypassSupplyOk ≠ s) :
    s.issueEvent s.lines.bypassSupplyOk = s.openPeriod.takeStep .issue := by
  have hopen : s.openPeriod.setSupply s.lines.bypassSupplyOk = s.openPeriod :=
    setSupply_self (by rw [s.openPeriod_lines])
  simp only [issueEvent, hopen] at h ⊢
  split
  · rfl
  · rename_i hc
    rw [if_neg hc] at h
    exact absurd rfl h

end State

open State in
/-- Settles O3: the commands of a part held in reset; those that find a period start under way; and the steps of one
that are taken before it. -/
theorem inResetAndMidPeriodStart : Obligations.InResetAndMidPeriodStart := by
  unfold Obligations.InResetAndMidPeriodStart
  refine ⟨fun c s hheld hpin hrise => ⟨fun hf hr => exec_of_held hheld hpin hrise hf hr, ?_, ?_⟩,
    fun s hreset hway => ?_, fun ok order s hreset hway => ?_, fun order s u hreset hne => ?_⟩
  · rintro rfl
    simp [exec, execSafetyStopFall, safetyFall, hheld, setSafety, setLines]
  · rintro rfl
    simp [exec, execSafetyStopRise, safetyRise, hheld, setSafety, setLines]
  · have hsettled := completePeriod_settled hreset
    have hfinish := finishPeriod_of_underWay hway
    have hlines : s.completePeriod.lines = s.lines := by simp
    refine ⟨hsettled, fun hempty => ?_, fun c hc => ?_, exec_safetyStopFall_finished hreset hsettled hfinish hlines,
      exec_safetyStopRise_finished hreset hsettled hfinish hlines⟩
    · rw [step_of_empty hempty, idleTick, unlessHeld_of_running hreset, if_pos (by simp [unfinished, hway]), hfinish]
    · rcases hc with h | h | h | ⟨p, a, rfl⟩ | h | h | h | h
      case inr.inr.inr.inl =>
        exact congrArg Host.Outcome.next (betweenFrames_finished hreset hsettled hfinish (fun _ => hway) _)
      · exact exec_finished hreset hsettled hfinish (.inl h)
      · exact exec_finished hreset hsettled hfinish (.inr (.inl h))
      · exact exec_finished hreset hsettled hfinish (.inr (.inr (.inl h)))
      · exact exec_finished hreset hsettled hfinish (.inr (.inr (.inr (.inl h))))
      · exact exec_finished hreset hsettled hfinish (.inr (.inr (.inr (.inr (.inl h)))))
      · exact exec_finished hreset hsettled hfinish (.inr (.inr (.inr (.inr (.inr (.inl h))))))
      · exact exec_finished hreset hsettled hfinish (.inr (.inr (.inr (.inr (.inr (.inr h))))))
  · obtain ⟨hreached, hall⟩ := takeSteps_reached (s.setSupply ok) order
    have hexec : exec (.periodStart ok order) s =
        .next (order.foldl takeStep (s.setSupply ok)).completePeriod := by
      rw [exec, execPeriodStart, unlessHeld_of_running hreset, periodStart, openPeriod_of_underWay hway]
    have hsettled := completePeriod_settled (s := order.foldl takeStep (s.setSupply ok))
      (by rw [(foldl_takeStep_frame _ _).1]; exact hreset)
    have hclock := hreached.clockAt
    have hcourse := takeHanded_course ((defaultOrder.foldl takeStep (order.foldl takeStep (s.setSupply ok))).updPs
      (fun _ => PeriodProgress.none))
    rw [← completePeriod] at hcourse
    have hlines := (completePeriod_frame (order.foldl takeStep (s.setSupply ok))).1
    rw [(foldl_takeStep_frame _ _).1] at hlines
    generalize (order.foldl takeStep (s.setSupply ok)).completePeriod = t at hexec hsettled hcourse hlines
    generalize defaultOrder.foldl takeStep (order.foldl takeStep (s.setSupply ok)) = e at hreached hall hclock hcourse
    simp only [course, Prod.mk.injEq, Control.mk.injEq] at hcourse
    obtain ⟨-, -, hsup, ⟨-, -, -, -, -, hreported, hupstream⟩, -, -, hclk⟩ := hcourse
    have hclk : t.ctu.clock = s.ctu.clock := hclk.trans hclock.clock
    refine ⟨t, hexec, hsettled, Carrier.counter_of_clock hclk, Carrier.position_of_clock hclk,
      Carrier.pInForce_of_clock hclk, Carrier.bases_of_clock hclk, hlines, hupstream.trans hclock.upstream,
      hreported.trans hclock.reported, ?_⟩
    have hsupply := hclock.supply
    rw [hsup.trans hsupply]
    by_cases hs : .supply ∈ s.ps.taken
    · rw [if_neg (fun h => h.2 hs), if_pos hs]
      rfl
    · rw [if_pos ⟨hall _, hs⟩, if_neg hs]
      rfl
  · intro ok x hx hexec
    have htaken : u = s.openPeriod.takeStep x.2 := by
      have hstep (y : PsStep) (cond : State → Bool)
          (h : (.next (s.unlessHeld (fun t => t.stepEvent y cond)) : Host.Outcome State Fault Refusal) = .next u) :
          u = s.openPeriod.takeStep y := by
        rw [unlessHeld_of_running hreset] at h
        injection h with h
        subst h
        exact stepEvent_eq_takeStep hne
      simp only [List.mem_cons, List.not_mem_nil, or_false] at hx
      rcases hx with rfl | rfl | rfl | rfl | rfl | rfl | rfl | rfl | rfl | rfl | rfl | rfl | rfl | rfl
      case inr.inr.inr.inr.inr.inr.inr.inr.inr.inr.inr.inl =>
        rw [exec, execActuationIssue, unlessHeld_of_running hreset] at hexec
        injection hexec with hissue
        subst hissue
        exact issueEvent_eq_takeStep hne
      all_goals exact hstep _ _ hexec
    obtain ⟨hway, hstart⟩ := s.periodStart_takeStep x.2 order
    have hrunning : u.lines.resetN = true := by rw [htaken]; simp [s.openPeriod_lines, hreset]
    refine ⟨htaken ▸ hway, ?_⟩
    rw [exec, execPeriodStart, unlessHeld_of_running hrunning, exec, execPeriodStart, unlessHeld_of_running hreset, htaken, hstart]

end Sys2Proof.Machine

/-! ### Before and after one step of a period start; the stages that may follow one another (R23, R52, R94) -/

namespace Sys2Proof

namespace Machine

/-- The stages in which the sequencer's response to a period start may leave a stage, in RUN. -/
def Stage.nexts : Stage → List Stage
  | .normal => [.normal]
  | .inhibit => [.inhibit, .isolate]
  | .isolate => [.isolate, .remap]
  | .remap => [.align, .inhibit]
  | .align => [.align, .awaitGrant]
  | .awaitGrant => [.awaitGrant, .resume]
  | .resume => [.resume, .normal]

namespace State

variable {s t u : State} {x : PsStep} {may : List PsStep → PsStep → Prop}

theorem Reached.kept (h : Reached may s t) : s.ps.taken ⊆ t.ps.taken := by
  induction h with
  | start => exact List.Subset.refl _
  | step _ _ _ _ ih =>
    rw [taking_runStep_taken]
    exact List.subset_cons_of_subset _ ih

/-- What each step keeps that a period start takes from one state on, the last of them does. -/
theorem Reached.keeps {P : State → Prop} (h : Reached may s t) (hs : P s)
    (hstep : ∀ u x, Reached may s u → x ∉ u.ps.taken → x.needs ⊆ u.ps.taken → x ∈ t.ps.taken → P u →
      P ((u.taking x).runStep x)) : P t := by
  suffices hsuff : ∀ v, Reached may s v → v.ps.taken ⊆ t.ps.taken → P v from hsuff t h (List.Subset.refl _)
  intro v hv
  induction hv with
  | start => exact fun _ => hs
  | @step u x hu hx hneeds _ ih =>
    intro hsub
    rw [taking_runStep_taken] at hsub
    exact hstep u x hu hx hneeds (hsub (List.mem_cons_self ..)) (ih fun y hy => hsub (List.mem_cons_of_mem _ hy))

/-- A step that has been taken parts a period start into what was before it and what came after. -/
theorem Reached.split (h : Reached may s t) (hx : x ∉ s.ps.taken) (ht : x ∈ t.ps.taken) :
    ∃ u, Reached may s u ∧ x ∉ u.ps.taken ∧ x.needs ⊆ u.ps.taken ∧ may u.ps.taken x ∧
      Reached may ((u.taking x).runStep x) t := by
  induction h with
  | start => exact absurd ht hx
  | @step t y hr hy hneeds hmay ih =>
    rw [taking_runStep_taken] at ht
    by_cases heq : x = y
    · subst heq
      exact ⟨t, hr, hy, hneeds, hmay, .start⟩
    · obtain ⟨u, hu, hxu, hun, hum, hafter⟩ := ih ((List.mem_cons.mp ht).resolve_left heq)
      exact ⟨u, hu, hxu, hun, hum, hafter.step hy hneeds hmay⟩

/-! Mode and stage -/

theorem runStep_mode_ne_run (h : s.mode ≠ .run) (x : PsStep) : (s.runStep x).mode ≠ .run := by
  have hmoved := (modeMoved_blockKept s).runStep (ModeMoved.refl s) x
  rcases hmoved.moved with ⟨-, hm | ⟨hm, -⟩⟩ | ⟨-, -, -, hm⟩
  · rwa [hm]
  · exact absurd hm h
  · rw [hm]
    exact modeByLine_ne_run s

/-- Mode and stage but for the sequencer's response: a trip, or a latch that sends the recovery back to INHIBIT. -/
def SentBack (s t : State) : Prop :=
  t.mode ≠ .run ∨ (s.mode = .run ∧ (t.rsq.stage = s.rsq.stage ∨ t.rsq.stage = .inhibit))

theorem SentBack.refl (s : State) : SentBack s s := by
  by_cases h : s.mode = .run
  · exact .inr ⟨h, .inl rfl⟩
  · exact .inl h

theorem SentBack.congr (h : SentBack s t) (hm : u.mode = t.mode) (hr : u.rsq.stage = t.rsq.stage) : SentBack s u := by
  rw [SentBack, hm, hr]
  exact h

theorem SentBack.inhibited (h : SentBack s t) (hm : u.mode = t.mode) (hr : u.rsq.stage = .inhibit) : SentBack s u := by
  rw [SentBack, hm]
  exact h.imp_right fun h => ⟨h.1, .inr hr⟩

theorem SentBack.requestTrip (h : SentBack s t) (r : TripRequest) : SentBack s (t.requestTrip r) := by
  by_cases hm : t.mode = .run
  · refine .inl ?_
    rw [requestTrip_of_run hm, departRun_mode]
    decide
  · rwa [requestTrip_of_not_run hm]

theorem latchEffect_stage (s : State) (p : Port) :
    (s.latchEffect p).1.rsq.stage = s.rsq.stage ∨ (s.latchEffect p).1.rsq.stage = .inhibit := by
  simp only [latchEffect, latchActive, openEpisode, pushBack]
  repeat' split
  all_goals simp [push_stage, deferLatch]

theorem sentBack_latchKept (s : State) : LatchKept (SentBack s) := by
  refine ⟨⟨?record, ?raise, ?trip, ?effect, ?count, ?outside, ?freed⟩, ?countPort, ?cutPort⟩
  case trip => exact fun _ r h => h.requestTrip r
  case effect =>
    intro t p _ h
    rcases t.latchEffect_stage p with hstage | hstage
    · exact h.congr (by simp) hstage
    · exact h.inhibited (by simp) hstage
  all_goals
    intros
    exact SentBack.congr ‹_› (by simp) (by simp)

theorem SentBack.closeFailed (h : SentBack s t) (p : Port) : SentBack s (t.closeFailed p) := by
  simp only [State.closeFailed]
  split
  · exact SentBack.requestTrip (h.congr (by simp) (by simp)) _
  · exact h.congr (by simp) (by simp)

theorem runStep_sentBack (hx : x ≠ .sequencer) : SentBack s (s.runStep x) := by
  have k := sentBack_latchKept s
  have h := SentBack.refl s
  cases x
  case sequencer => exact absurd rfl hx
  case links => exact k.linksStep h
  case window => exact k.windowStep h
  case hold =>
    simp only [runStep, holdStep]
    split
    · exact SentBack.requestTrip (h.congr (by simp) (by simp)) _
    · exact h.congr (by simp) (by simp)
  case fail =>
    simp only [runStep, failStep]
    repeat' split
    · rename_i a _ _ _ _
      have hfailed : SentBack s ((s.setRetry a.port true).closeFailed a.port) :=
        SentBack.closeFailed (h.congr (by simp) (by simp)) _
      exact hfailed.congr (by simp) (by simp)
    all_goals exact h.congr (by simp) (by simp)
  all_goals exact h.congr (by simp [runStep]) (by simp [runStep])

/-- R23: how the sequencer's response moves the stage. -/
theorem sequencerStep_nexts (hm : s.mode = .run) :
    s.sequencerStep.mode ≠ .run ∨ s.sequencerStep.rsq.stage ∈ s.rsq.stage.nexts := by
  have htrip {u : State} (hu : u.mode = .run) (r : TripRequest) : (u.requestTrip r).mode ≠ .run := by
    rw [requestTrip_of_run hu, departRun_mode]
    decide
  have hgap : s.gapStep.mode = .run := by simpa using hm
  have hstage : s.gapStep.rsq.stage = s.rsq.stage := by
    rw [gapStep]
    split <;> rfl
  rw [sequencerStep, if_pos hm]
  split
  · exact .inl (htrip hgap _)
  rw [← hstage]
  generalize s.gapStep = u at hgap
  simp only [stageProgress]
  cases hu : u.rsq.stage
  case normal => exact .inr (by simp [hu, Stage.nexts])
  case inhibit => exact .inr (by simpa [Stage.nexts] using inhibitProgress_stage hu)
  case isolate =>
    refine .inr ?_
    dsimp only
    split <;> simp [hu, enterRemap, Stage.nexts]
  case remap =>
    simp only [remapCompletion, acceptDeferred]
    repeat' split
    · exact .inl (htrip (by simpa using hgap) _)
    · exact .inr (by simp [enterAlign, Stage.nexts])
    · exact .inl (htrip (by simpa using hgap) _)
    · exact .inl (htrip (by simpa using hgap) _)
    · exact .inr (by simp [push_stage, Stage.nexts])
  case align =>
    refine .inr ?_
    dsimp only
    split <;> simp [hu, enterAwaitGrant, Stage.nexts]
  case awaitGrant =>
    refine .inr ?_
    dsimp only
    split <;> simp [hu, enterResume, Stage.nexts]
  case resume =>
    refine .inr ?_
    simp only [resumeProgress, endResume]
    repeat' split
    all_goals simp [hu, Stage.nexts]

/-- A period start but for the sequencer's response: the stage stays, or is sent back to INHIBIT, in what stays in RUN. -/
theorem Reached.sentBack (hr : Reached may s t) (h : .sequencer ∈ s.ps.taken ∨ .sequencer ∉ t.ps.taken) : SentBack s t := by
  refine hr.keeps (P := SentBack s) (SentBack.refl s) fun u x hu hx _ ht hsent => ?_
  have hne : x ≠ .sequencer := by
    rintro rfl
    exact h.elim (fun h => hx (hu.kept h)) (fun h => h ht)
  have hone : SentBack u ((u.taking x).runStep x) := runStep_sentBack (s := u.taking x) hne
  rcases hone with hone | ⟨hrun, hone⟩
  · exact .inl hone
  · rcases hsent with hsent | ⟨hs, hsent⟩
    · exact absurd hrun hsent
    · exact .inr ⟨hs, hone.elim (fun h => h.symm ▸ hsent) .inr⟩

/-- The stage over a whole period start, in what stays in RUN (R23, R38 to R41). -/
theorem Reached.stage (hr : Reached may s t) (hn : .sequencer ∉ s.ps.taken) (ht : .sequencer ∈ t.ps.taken) :
    t.mode ≠ .run ∨ (s.mode = .run ∧
      (t.rsq.stage = .inhibit ∨ t.rsq.stage = .isolate ∨ t.rsq.stage ∈ s.rsq.stage.nexts)) := by
  obtain ⟨u, hu, huq, -, -, hafter⟩ := hr.split hn ht
  have hlast := hafter.sentBack (.inl (by rw [taking_runStep_taken]; exact List.mem_cons_self ..))
  rcases hlast with hlast | ⟨hrun, hlast⟩
  · exact .inl hlast
  · have huRun : u.mode = .run := by
      by_contra hne
      exact runStep_mode_ne_run (s := u.taking .sequencer) hne .sequencer hrun
    rcases hu.sentBack (.inr huq) with hfirst | ⟨hs, hfirst⟩
    · exact absurd huRun hfirst
    refine .inr ⟨hs, ?_⟩
    rcases hlast with hlast | hlast
    · have hnext := (sequencerStep_nexts (s := u.taking .sequencer) huRun).resolve_left (fun h => h hrun)
      replace hnext : t.rsq.stage ∈ u.rsq.stage.nexts := hlast ▸ hnext
      rcases hfirst with hfirst | hfirst
      · exact .inr (.inr (hfirst ▸ hnext))
      · rw [hfirst] at hnext
        simp only [Stage.nexts, List.mem_cons, List.not_mem_nil, or_false] at hnext
        exact hnext.elim .inl (fun h => .inr (.inl h))
    · exact .inl hlast

end State
end Machine
end Sys2Proof

/-! ### What the steps of a period start leave of the links and of the recorded cell state (R4, R57, R134) -/

namespace Sys2Proof

namespace Machine

namespace State

variable {s t u : State} {x : PsStep} {p q : Port} {may : List PsStep → PsStep → Prop}

/-- Between two states a port has been sent urgent BLOCKs and nothing else has come of its link. -/
structure UrgedAt (q : Port) (s t : State) : Prop where
  clock : t.ctu.clock = s.ctu.clock
  link : ∃ urgent, t.link q = { s.link q with transmit := (s.link q).transmit ++ urgent } ∧
    ((s.link q).state.sends = false → urgent = []) ∧ ∀ f ∈ urgent, f = { s.urgentFrame q .block with order := f.order }

theorem urgentFrame_of_clock (h : t.ctu.clock = s.ctu.clock) (o : Order) :
    ({ t.urgentFrame q .block with order := o } : CellFrame) = { s.urgentFrame q .block with order := o } := by
  have hcounter : t.ctu.counter = s.ctu.counter := Carrier.counter_of_clock h
  have hpin : t.ctu.pInForce = s.ctu.pInForce := Carrier.pInForce_of_clock h
  simp [urgentFrame, tag, hcounter, hpin]

theorem UrgedAt.congr (h : UrgedAt q s t) (hl : u.link q = t.link q) (hc : u.ctu.clock = t.ctu.clock) : UrgedAt q s u :=
  ⟨hc.trans h.clock, hl ▸ h.link⟩

theorem UrgedAt.refl (q : Port) (s : State) : UrgedAt q s s := ⟨rfl, [], by simp, fun _ => rfl, by simp⟩

theorem urgedAt_of_link (hl : t.link q = s.link q) (hc : t.ctu.clock = s.ctu.clock) : UrgedAt q s t :=
  (UrgedAt.refl q s).congr hl hc

theorem UrgedAt.trans (h : UrgedAt q s t) (h' : UrgedAt q t u) : UrgedAt q s u := by
  obtain ⟨a, ha, hna, hfa⟩ := h.link
  obtain ⟨b, hb, hnb, hfb⟩ := h'.link
  have hstate : (t.link q).state = (s.link q).state := by rw [ha]
  refine ⟨h'.clock.trans h.clock, a ++ b, ?_, fun hs => ?_, fun f hf => ?_⟩
  · rw [hb, ha, List.append_assoc]
  · rw [hna hs, hnb (hstate ▸ hs), List.append_nil]
  · exact (List.mem_append.mp hf).elim (hfa f) fun hf => (hfb f hf).trans (urgentFrame_of_clock h.clock _)

theorem urgedAt_urgentBlock (q : Port) (s : State) : UrgedAt q s s.urgentBlock := by
  refine ⟨by simp, if (s.link q).state.sends then [s.urgentFrame q .block] else [], ?_, fun h => by simp [h], fun f hf => ?_⟩
  · rw [urgentBlock_link]
    split <;> simp
  · split at hf
    · rw [List.mem_singleton.mp hf]
    · cases hf

theorem UrgedAt.urgentBlock (h : UrgedAt q s t) (hl : u.link q = t.urgentBlock.link q) (hc : u.ctu.clock = t.ctu.clock) :
    UrgedAt q s u :=
  (h.trans (urgedAt_urgentBlock q t)).congr hl (hc.trans (by simp))

theorem UrgedAt.requestTrip (h : UrgedAt q s t) (r : TripRequest) : UrgedAt q s (t.requestTrip r) := by
  by_cases hm : t.mode = .run
  · rw [requestTrip_of_run hm]
    refine UrgedAt.urgentBlock (t := t.writeLog _) (h.congr (by simp [State.link]) (by simp)) (departRun_link _ _ _) (by simp)
  · rwa [requestTrip_of_not_run hm]

theorem UrgedAt.push (h : UrgedAt q s t) (st : Stage) (gap : Nat) (policy : Option PolicyEntry) :
    UrgedAt q s (t.push st gap policy) :=
  h.urgentBlock (push_link _ _ _ _ _) (by simp)

theorem urgedAt_cellKept (q : Port) (s : State) : CellKept (UrgedAt q s) := by
  refine ⟨?record, ?raise, ?trip, ?effect, ?count, ?outside, ?freed⟩
  case trip => exact fun _ r h => h.requestTrip r
  case effect =>
    intro t p _ h
    have hisolating : UrgedAt q s (t.makeIsolating p) := h.congr (by simp [State.link]) (by simp)
    simp only [latchEffect, latchActive, openEpisode, pushBack]
    repeat' split
    all_goals first
      | with_reducible exact h
      | with_reducible exact hisolating
      | with_reducible exact hisolating.push _ _ _
      | exact h.congr (by simp [State.link]) (by simp)
  all_goals
    intros
    exact UrgedAt.congr ‹_› (by simp [State.link]) (by simp)

theorem UrgedAt.stageProgress (h : UrgedAt q s t) : UrgedAt q s t.stageProgress := by
  have hsame (hl : t.stageProgress.links = t.links) : UrgedAt q s t.stageProgress := h.congr (by simp [State.link, hl]) (by simp)
  have hrebuilt : UrgedAt q s t.rebuild.applyRecovery := h.congr (by simp [State.link]) (by simp)
  have hdeferred (l : List Port) : UrgedAt q s (l.foldl makeIsolating t.rebuild.applyRecovery) :=
    hrebuilt.congr (by simp [State.link]) (by simp)
  cases hs : t.rsq.stage <;> simp only [State.stageProgress, hs] at hsame ⊢
  case remap =>
    simp only [remapCompletion, acceptDeferred]
    repeat' split
    · exact hrebuilt.requestTrip _
    · exact hrebuilt.congr (by simp [State.link]) (by simp [enterAlign, closeWindow])
    · exact (hdeferred _).requestTrip _
    · exact (hdeferred _).requestTrip _
    · exact (hdeferred _).push _ _ _
  case isolate | align | awaitGrant =>
    refine hsame ?_
    split <;> simp
  all_goals exact hsame (by simp)

/-- The steps that touch the links are the links step and the composition of the frames. -/
theorem runStep_urgedAt (hl : x ≠ .links) (hc : x ≠ .compose) : UrgedAt q s (s.runStep x) := by
  have k := urgedAt_cellKept q s
  have h := UrgedAt.refl q s
  have hsame (hs : (s.runStep x).links = s.links) : UrgedAt q s (s.runStep x) := h.congr (by simp [State.link, hs]) (by simp)
  cases x
  case links => exact absurd rfl hl
  case compose => exact absurd rfl hc
  case window => exact k.windowStep h
  case hold =>
    simp only [runStep, holdStep]
    split
    · exact UrgedAt.requestTrip (h.congr (by simp [State.link]) (by simp)) _
    · exact h.congr (by simp [State.link]) (by simp)
  case fail =>
    simp only [runStep, failStep, closeFailed]
    repeat' split
    · rename_i a _ _ _ _ _
      have htripped : UrgedAt q s (((s.setRetry a.port true).raise .bypassFail).requestTrip
          { cause := .bypassFail, port := some a.port }) :=
        UrgedAt.requestTrip (h.congr (by simp [State.link]) (by simp)) _
      exact htripped.congr (by simp [State.link]) (by simp)
    all_goals exact h.congr (by simp [State.link]) (by simp)
  case sequencer =>
    have hgap : UrgedAt q s s.gapStep := h.congr (by simp [State.link]) (by simp)
    simp only [runStep, sequencerStep]
    repeat' split
    · exact hgap.requestTrip _
    · exact hgap.stageProgress
    · exact h
  all_goals exact hsame (by simp [runStep])

/-! The recorded state of the cells and the queue -/

/-- The recorded state of every cell stays, and no entry joins the queue. -/
structure CellsKept (s t : State) : Prop where
  record : ∀ q, (t.entry q).record = (s.entry q).record
  queue : t.bau.queue ⊆ s.bau.queue

theorem CellsKept.refl (s : State) : CellsKept s s := ⟨fun _ => rfl, List.Subset.refl _⟩

theorem CellsKept.trans (h : CellsKept s t) (h' : CellsKept t u) : CellsKept s u :=
  ⟨fun q => (h'.record q).trans (h.record q), List.Subset.trans h'.queue h.queue⟩

theorem Aftermath.cellsKept (h : Aftermath s t) : CellsKept s t := ⟨h.record, h.queue⟩

theorem cellsKept_of_roster (hr : t.roster = s.roster) (hq : t.bau.queue ⊆ s.bau.queue) : CellsKept s t :=
  ⟨fun q => by simp [entry, hr], hq⟩

theorem cellsKept_cellKept (s : State) : CellKept (CellsKept s) where
  record t f h := h.trans (aftermath_updPs t f).cellsKept
  raise t f h := h.trans (aftermath_raise t f).cellsKept
  trip t r h := h.trans (aftermath_requestTrip t r).cellsKept
  effect t p _ h := h.trans (aftermath_latchEffect t p).cellsKept
  count t l m st depth h := h.trans (aftermath_countLatch t l m st depth).cellsKept
  outside t l _ h := h.trans (aftermath_latchOutsideRun t l).cellsKept
  freed _ _ h := h.trans ((aftermath_updEntry (f := fun e => { e with insertionTarget := none }) rfl).trans
    (aftermath_reselect _)).cellsKept

theorem cellsKept_enterIsolate (s : State) : CellsKept s s.enterIsolate := by
  have hentered : CellsKept s ((s.updRsq (fun r => { r with stage := .isolate })).updBau
    (fun b => { b with settleCount := 0 })) := cellsKept_of_roster (by simp) (by simp)
  exact hentered.trans (aftermath_selectSpares _).cellsKept

theorem cellsKept_inhibitProgress (s : State) : CellsKept s s.inhibitProgress := by
  have hcounted : CellsKept s (s.updRsq (fun r => { r with inhibitCount := r.inhibitCount + 1 })) :=
    cellsKept_of_roster (by simp) (by simp)
  simp only [inhibitProgress]
  repeat' split
  · exact CellsKept.refl s
  · exact hcounted.trans (cellsKept_enterIsolate _)
  · exact hcounted

theorem cellsKept_enterAlign (s : State) : CellsKept s s.enterAlign :=
  cellsKept_of_roster (by simp) (by simp [enterAlign, closeWindow])

theorem cellsKept_stageProgress (s : State) : CellsKept s s.stageProgress := by
  have hrebuilt : CellsKept s s.rebuild.applyRecovery :=
    ⟨fun q => by
      have hentry : s.rebuild.applyRecovery.entry q = s.rebuild.entry q := by simp [entry]
      obtain ⟨hrebuilt, -⟩ := s.rebuild_entry_rebuilt q
      rw [hentry, hrebuilt]
      simp only [RosterEntry.record], by simp⟩
  have hdeferred (l : List Port) : CellsKept s (l.foldl makeIsolating s.rebuild.applyRecovery) :=
    foldl_keeps (P := CellsKept s) (fun t p h => h.trans (aftermath_makeIsolating t p).cellsKept) l hrebuilt
  cases hs : s.rsq.stage <;> simp only [State.stageProgress, hs]
  case inhibit => exact cellsKept_inhibitProgress s
  case remap =>
    simp only [remapCompletion, acceptDeferred]
    repeat' split
    · exact hrebuilt.trans (aftermath_requestTrip _ _).cellsKept
    · exact hrebuilt.trans (cellsKept_enterAlign _)
    · exact (hdeferred _).trans (aftermath_requestTrip _ _).cellsKept
    · exact (hdeferred _).trans (aftermath_requestTrip _ _).cellsKept
    · exact (hdeferred _).trans (aftermath_push _ _ _ _).cellsKept
  case isolate | align | awaitGrant =>
    split <;> exact cellsKept_of_roster (by simp) (by simp)
  all_goals exact cellsKept_of_roster (by simp) (by simp)

theorem cellsKept_openFailed (s : State) (p : Port) : CellsKept s (s.openFailed p) := by
  by_cases hr : (s.entry p).role = .spare
  · have hspare := openFailed_spare hr
    refine ⟨fun q => ?_, by rw [hspare]; exact List.Subset.refl _⟩
    rw [entry, hspare]
    by_cases hq : q = p
    · subst hq
      simp [RosterEntry.record, entry]
    · simp [Vector.getElem_set_ne _ _ (fun hv => hq (Fin.ext hv.symm)), entry]
  · rw [openFailed_other hr]
    exact cellsKept_of_roster rfl (List.Subset.refl _)

/-- A step that is none of these leaves the recorded state of every cell, and lets no entry join the queue. -/
theorem runStep_cellsKept (hx : x ∉ [PsStep.deem, .reconcile, .issue, .links]) : CellsKept s (s.runStep x) := by
  have k := cellsKept_cellKept s
  have h := CellsKept.refl s
  cases x
  case deem | reconcile | issue | links => simp at hx
  case window => exact k.windowStep h
  case hold =>
    have hcounted : CellsKept s (s.updCli (fun c => { c with holdCount := s.holdAfter })) := cellsKept_of_roster (by simp) (by simp)
    simp only [runStep, holdStep]
    split
    · exact k.trip _ _ hcounted
    · exact hcounted
  case fail =>
    have hretry (p : Port) : CellsKept s (s.setRetry p true) := cellsKept_of_roster (by simp) (by simp [setRetry])
    have hdrop (t : State) : CellsKept t t.dropHead :=
      cellsKept_of_roster (by simp) t.dropHead_queue_sublist.subset
    simp only [runStep, failStep]
    repeat' split
    · rename_i a _ _ _ _
      have hfailed : CellsKept s ((s.setRetry a.port true).closeFailed a.port) := by
        have hraised := k.raise _ .bypassFail (hretry a.port)
        simp only [closeFailed]
        split
        · exact k.trip _ _ hraised
        · exact hraised
      exact k.record _ _ (hfailed.trans (hdrop _))
    · exact ((hretry _).trans (hdrop _)).trans (cellsKept_openFailed _ _)
    all_goals exact h
  case select =>
    simp only [runStep, selectStep]
    split
    · exact (aftermath_updPs _ _).cellsKept.trans (aftermath_reselect _).cellsKept
    · exact h
  case sequencer =>
    have hgap : CellsKept s s.gapStep := cellsKept_of_roster (by simp) (by simp)
    simp only [runStep, sequencerStep]
    repeat' split
    · exact k.trip _ _ hgap
    · exact hgap.trans (cellsKept_stageProgress _)
    · exact h
  case leak =>
    refine ⟨fun q => ?_, by simp [runStep]⟩
    simp only [runStep, leakStep]
    split <;> simp [RosterEntry.record, entry, mapEntries]
  case supply => exact cellsKept_of_roster (by simp [runStep]) (by simp [runStep, supplyStep])
  case settle => exact cellsKept_of_roster (by simp [runStep]) (by simp [runStep, settleStep_queue])
  all_goals exact cellsKept_of_roster (by simp [runStep]) (by simp [runStep])

end State
end Machine
end Sys2Proof

/-! ### Issuing the head entry (R53, R58, R59) -/

namespace Sys2Proof

namespace Machine

namespace State

variable {s t u : State} {x : PsStep} {p q : Port} {a : Actuation} {may : List PsStep → PsStep → Prop}

/-! No entry issued -/

/-- Between two states no entry has been issued, and no bypass order has changed but that of a cell deemed closed. -/
structure NotIssued (s t : State) : Prop where
  inFlight : ∀ a ∈ t.bau.queue, a.issued.isSome = true → a ∈ s.bau.queue
  orders : ∀ p, ((t.entry p).bypassOrder = (s.entry p).bypassOrder ∧ (t.entry p).blind = (s.entry p).blind) ∨
    ((s.entry p).blind = false ∧ (t.entry p).blind = true ∧ (t.entry p).bypassOrder = .closed)

theorem NotIssued.refl (s : State) : NotIssued s s := ⟨fun _ h _ => h, fun _ => .inl ⟨rfl, rfl⟩⟩

theorem NotIssued.congr (h : NotIssued s t) (hq : ∀ a ∈ u.bau.queue, a.issued.isSome = true → a ∈ t.bau.queue)
    (he : ∀ p, (u.entry p).bypassOrder = (t.entry p).bypassOrder ∧ (u.entry p).blind = (t.entry p).blind) : NotIssued s u where
  inFlight a ha hi := h.inFlight a (hq a ha hi) hi
  orders p := by
    rw [(he p).1, (he p).2]
    exact h.orders p

theorem NotIssued.cells (h : NotIssued s t) (hc : CellsKept t u) : NotIssued s u := by
  refine h.congr (fun _ ha _ => hc.queue ha) fun p => ?_
  have hrecord := hc.record p
  simp only [RosterEntry.record, Prod.mk.injEq] at hrecord
  obtain ⟨-, -, -, horder, -, -, -, hblind⟩ := hrecord
  exact ⟨horder, hblind⟩

theorem dropWaiting_subset (s : State) (p : Port) : (s.dropWaiting p).bau.queue ⊆ s.bau.queue :=
  fun _ h => (List.mem_filter.mp h).1

/-- A port that enters LOST, before the loss acts on its cell. -/
theorem cutPort_entry (s : State) (p q : Port) : ((((s.updLink p (Link.toLost p)).raise .linkLost).updEntry p
    (fun e => { e with contact := .unknown })).dropWaiting p).entry q =
      if p = q then { s.entry p with contact := .unknown } else s.entry q :=
  updEntry_entry _ p (fun e => { e with contact := .unknown }) q

theorem cutPort_link (s : State) (p q : Port) : ((((s.updLink p (Link.toLost p)).raise .linkLost).updEntry p
    (fun e => { e with contact := .unknown })).dropWaiting p).link q =
      if p = q then (s.link p).toLost p else s.link q :=
  updLink_link _ p (Link.toLost p) q

theorem notIssued_latchKept (s : State) : LatchKept (NotIssued s) where
  record t f h := h.cells ((cellsKept_cellKept t).record t f (CellsKept.refl t))
  raise t f h := h.cells ((cellsKept_cellKept t).raise t f (CellsKept.refl t))
  trip t r h := h.cells ((cellsKept_cellKept t).trip t r (CellsKept.refl t))
  effect t p hm h := h.cells ((cellsKept_cellKept t).effect t p hm (CellsKept.refl t))
  count t l m st depth h := h.cells ((cellsKept_cellKept t).count t l m st depth (CellsKept.refl t))
  outside t l hm h := h.cells ((cellsKept_cellKept t).outside t l hm (CellsKept.refl t))
  freed t p h := h.cells ((cellsKept_cellKept t).freed t p (CellsKept.refl t))
  countPort t p h := h.cells (cellsKept_of_roster (by simp) (by simp))
  cutPort t p h := h.congr (fun _ ha _ => dropWaiting_subset _ p ha) fun q => by
    simp only [cutPort_entry]
    split
    · rename_i hq
      exact hq ▸ ⟨rfl, rfl⟩
    · exact ⟨rfl, rfl⟩

theorem NotIssued.deemStep (h : NotIssued s t) : NotIssued s t.deemStep := by
  obtain ⟨-, hin, hout⟩ := foldl_deemClosed (allPorts.filter t.deemable) (allPorts_nodup.filter _) t
  have hsub : t.deemStep.bau.queue ⊆ t.bau.queue :=
    foldl_keeps (P := fun u => u.bau.queue ⊆ t.bau.queue)
      (fun u p hu => List.Subset.trans (u.deemClosed_queue_sublist p).subset hu) _ (List.Subset.refl _)
  refine ⟨fun a ha hi => h.inFlight a (hsub ha) hi, fun p => ?_⟩
  by_cases hp : p ∈ allPorts.filter t.deemable
  · obtain ⟨-, -, -, hblind, -⟩ := deemable_iff.mp (List.mem_filter.mp hp).2
    have hentry : t.deemStep.entry p = { t.entry p with blind := true, bypassOrder := .closed } := hin p hp
    rw [hentry]
    refine .inr ⟨?_, rfl, rfl⟩
    rcases h.orders p with ⟨-, hsame⟩ | ⟨hs, -⟩
    · exact hsame ▸ hblind
    · exact hs
  · have hentry : t.deemStep.entry p = t.entry p := hout p hp
    rw [hentry]
    exact h.orders p

theorem NotIssued.runStep (h : NotIssued s t) (hx : x ≠ .issue) : NotIssued s (t.runStep x) := by
  by_cases hcells : x ∈ [PsStep.deem, .reconcile, .issue, .links]
  · simp only [List.mem_cons, List.not_mem_nil, or_false] at hcells
    rcases hcells with rfl | rfl | rfl | rfl
    · exact h.deemStep
    · refine h.congr (fun a ha hi => ?_) fun p => by simp [State.runStep, entry]
      simp only [State.runStep, reconcileStep, updBau_bau, List.mem_append] at ha
      rcases ha with (ha | ha) | ha
      · exact ha
      all_goals
        rw [(mem_reconcileEntries ha).2] at hi
        cases hi
    · exact absurd rfl hx
    · exact (notIssued_latchKept s).linksStep h
  · exact h.cells (runStep_cellsKept hcells)

theorem issueStep_of_none (h : s.issuable? = none) : s.issueStep = s := by rw [issueStep, h]

theorem Reached.notIssued (hr : Reached may s t) (h : .issue ∈ s.ps.taken ∨ .issue ∉ t.ps.taken) : NotIssued s t := by
  refine hr.keeps (P := NotIssued s) (NotIssued.refl s) fun u x hu hx _ ht hkept => ?_
  refine NotIssued.runStep (t := u.taking x) (hkept.congr (fun _ h _ => h) fun _ => ⟨rfl, rfl⟩) ?_
  rintro rfl
  exact h.elim (fun h => hx (hu.kept h)) (fun h => h ht)

/-! The entry in flight -/

/-- An entry in flight stands in the queue, or its cell has been deemed closed and its port has none. -/
def HeldOrLost (a : Actuation) (s : State) : Prop :=
  a ∈ s.bau.queue ∨ ((s.link a.port).state = .lost ∧ ∀ e ∈ s.bau.queue, e.port ≠ a.port)

theorem HeldOrLost.congr (h : HeldOrLost a s) (hq : t.bau.queue ⊆ s.bau.queue) (hk : a ∈ s.bau.queue → a ∈ t.bau.queue)
    (hl : (s.link a.port).state = .lost → (t.link a.port).state = .lost) : HeldOrLost a t :=
  h.imp hk fun ⟨hlost, hnone⟩ => ⟨hl hlost, fun e he => hnone e (hq he)⟩

theorem UrgedAt.state (h : UrgedAt q s t) : (t.link q).state = (s.link q).state := by
  obtain ⟨urgent, hl, -⟩ := h.link
  rw [hl]

theorem HeldOrLost.requestTrip (h : HeldOrLost a s) (hi : a.issued.isSome = true) (r : TripRequest) :
    HeldOrLost a (s.requestTrip r) := by
  refine h.congr (requestTrip_queue_sublist s r).subset (fun ha => ?_) fun hl => by
    rw [((UrgedAt.refl _ s).requestTrip r).state, hl]
  by_cases hm : s.mode = .run
  · rw [requestTrip_of_run hm, departRun_queue]
    exact List.mem_filter.mpr ⟨by simpa using ha, by simp [hi]⟩
  · rwa [requestTrip_of_not_run hm]

theorem heldOrLost_latchKept (hi : a.issued.isSome = true) : LatchKept (HeldOrLost a) := by
  have hsame {s t : State} (h : HeldOrLost a s) (hq : t.bau.queue = s.bau.queue)
      (hl : (t.link a.port).state = (s.link a.port).state) : HeldOrLost a t :=
    h.congr (hq ▸ List.Subset.refl _) (fun ha => hq ▸ ha) (fun hlost => hl ▸ hlost)
  constructor
  case toCellKept =>
    refine ⟨fun s f h => ?_, fun s f h => ?_, fun s r h => h.requestTrip hi r, fun s p hm h => ?_, fun s l m st depth h => ?_,
      fun s l hm h => ?_, fun s p h => ?_⟩
    all_goals refine hsame h (by simp) (UrgedAt.state ?_)
    · exact (urgedAt_cellKept _ s).record s f (.refl _ s)
    · exact (urgedAt_cellKept _ s).raise s f (.refl _ s)
    · exact (urgedAt_cellKept _ s).effect s p hm (.refl _ s)
    · exact (urgedAt_cellKept _ s).count s l m st depth (.refl _ s)
    · exact (urgedAt_cellKept _ s).outside s l hm (.refl _ s)
    · exact (urgedAt_cellKept _ s).freed s p (.refl _ s)
  case countPort =>
    intro s p h
    refine h.congr (by simp) (by simp) fun hl => ?_
    simp only [countPort]
    repeat' split
    · simp only [updLink_link]
      split <;> simp_all
    · rename_i hm
      simp only [updLink_link]
      split
      · rename_i hp
        subst hp
        simp [misses, hl] at hm
      · exact hl
    · exact hl
  case cutPort =>
    intro s p h
    refine h.congr (fun e he => dropWaiting_subset _ p he)
      (fun ha => by simpa [dropWaiting, hi] using ha) fun hl => ?_
    simp only [cutPort_link]
    split
    · rfl
    · exact hl

theorem stageProgress_queue_issued (ha : a ∈ s.bau.queue) (hi : a.issued.isSome = true) : a ∈ s.stageProgress.bau.queue := by
  have htrip {t : State} (ht : t.bau.queue = s.bau.queue) (r : TripRequest) : a ∈ (t.requestTrip r).bau.queue := by
    by_cases hm : t.mode = .run
    · rw [requestTrip_of_run hm, departRun_queue]
      exact List.mem_filter.mpr ⟨by simpa [ht] using ha, by simp [hi]⟩
    · rwa [requestTrip_of_not_run hm, ht]
  cases hs : s.rsq.stage <;> simp only [State.stageProgress, hs]
  case remap =>
    simp only [remapCompletion, acceptDeferred]
    repeat' split
    · exact htrip (by simp) _
    · simpa [enterAlign, closeWindow] using ha
    · exact htrip (by simp [foldl_makeIsolating_queue]) _
    · exact htrip (by simp [foldl_makeIsolating_queue]) _
    · simpa [foldl_makeIsolating_queue] using ha
  case inhibit =>
    simp only [inhibitProgress, enterIsolate]
    repeat' split
    all_goals simpa using ha
  case isolate | align | awaitGrant => split <;> simpa [enterRemap, enterAwaitGrant, enterResume, closeWindow] using ha
  case resume =>
    simp only [resumeProgress]
    split <;> simpa using ha
  case normal => exact ha

theorem windowClosed_of_now (h : s.bau.queue.head? = some a) (hi : a.issued = some s.ctu.counter)
    (hl : 1 ≤ s.settings.confirmLimit) : s.windowClosed = false := by
  have hnow : periodsSince s.ctu.counter s.ctu.counter = 0 := by simp [periodsSince]
  have hlt : ¬s.settings.confirmLimit ≤ 0 := by omega
  simp [windowClosed, inFlight?, h, hi, Option.filter_some, hnow, hlt]

theorem QueueLaw.eq_cons (h : s.QueueLaw) (ha : a ∈ s.bau.queue) (hi : a.issued.isSome = true) :
    ∃ rest, s.bau.queue = a :: rest ∧ (∀ e ∈ rest, e.issued = none) ∧ ∀ e ∈ rest, e.port ≠ a.port := by
  have hports := h.ports
  have hwaiting := h.waiting
  cases hq : s.bau.queue with
  | nil => simp [hq] at ha
  | cons b rest =>
    rw [hq] at ha hports hwaiting
    rcases List.mem_cons.mp ha with rfl | ha
    · exact ⟨rest, rfl, hwaiting, fun e he heq =>
        (List.nodup_cons.mp hports).1 (List.mem_map.mpr ⟨e, he, heq⟩)⟩
    · rw [hwaiting a ha] at hi
      cases hi

theorem HeldOrLost.deemStep (h : HeldOrLost a s) (hi : a.issued.isSome = true) (hq : s.QueueLaw) : HeldOrLost a s.deemStep := by
  have hlink : s.deemStep.link a.port = s.link a.port := by simp [link]
  rcases h with ha | ⟨hlost, hnone⟩
  · obtain ⟨rest, hqueue, hwaiting, hother⟩ := hq.eq_cons ha hi
    have hafter := foldl_deemClosed_queue (allPorts.filter s.deemable) s hqueue hwaiting
    rw [← State.deemStep] at hafter
    split at hafter
    · rename_i hdeemed
      obtain ⟨-, hlost, -⟩ := deemable_iff.mp (List.mem_filter.mp hdeemed.1).2
      exact .inr ⟨hlink ▸ hlost, hafter ▸ hother⟩
    · exact .inl (hafter ▸ List.mem_cons_self ..)
  · have hsub : s.deemStep.bau.queue ⊆ s.bau.queue :=
      foldl_keeps (P := fun u => u.bau.queue ⊆ s.bau.queue)
        (fun u p hu => List.Subset.trans (u.deemClosed_queue_sublist p).subset hu) _ (List.Subset.refl _)
    exact .inr ⟨hlink ▸ hlost, fun e he => hnone e (hsub he)⟩

theorem HeldOrLost.failStep (h : HeldOrLost a s) (hi : a.issued = some s.ctu.counter) (hq : s.QueueLaw)
    (hl : 1 ≤ s.settings.confirmLimit) : HeldOrLost a s.failStep := by
  rcases h with ha | ⟨hlost, hnone⟩
  · obtain ⟨rest, hqueue, -⟩ := hq.eq_cons ha (by simp [hi])
    have hopen := windowClosed_of_now (by simp [hqueue]) hi hl
    have hsame : s.failStep = s := by
      rw [State.failStep]
      split
      · rw [if_neg (by simp [hopen])]
      · rfl
    rw [hsame]
    exact .inl ha
  · have hstate := (runStep_urgedAt (s := s) (q := a.port) (x := .fail) (by decide) (by decide)).state
    have hsub := (runStep_cellsKept (s := s) (x := .fail) (by decide)).queue
    exact .inr ⟨hstate.trans hlost, fun e he => hnone e (hsub he)⟩

theorem HeldOrLost.reconcileStep (h : HeldOrLost a s) : HeldOrLost a s.reconcileStep := by
  rcases h with ha | ⟨hlost, hnone⟩
  · exact .inl (by simp [State.reconcileStep, ha])
  · refine .inr ⟨hlost, fun e he => ?_⟩
    have hnever {d : Order} (hm : e ∈ s.reconcileEntries d) : e.port ≠ a.port := by
      obtain ⟨p, hp, rfl⟩ := List.mem_map.mp hm
      rintro rfl
      simp [reconcileDir?, hlost] at hp
    simp only [State.reconcileStep, updBau_bau, List.mem_append] at he
    rcases he with (he | he) | he
    · exact hnone e he
    · exact hnever he
    · exact hnever he

/-- An entry issued in this very period stays in flight through every step but the issue, unless its cell is deemed
closed. -/
theorem HeldOrLost.runStep (h : HeldOrLost a s) (hi : a.issued = some s.ctu.counter) (hq : s.QueueLaw)
    (hl : 1 ≤ s.settings.confirmLimit) (hx : x ≠ .issue) : HeldOrLost a (s.runStep x) := by
  have hsome : a.issued.isSome = true := by simp [hi]
  have k := heldOrLost_latchKept hsome
  have hkept (hq : (s.runStep x).bau.queue = s.bau.queue) (hlink : (s.runStep x).links = s.links) : HeldOrLost a (s.runStep x) :=
    h.congr (hq ▸ List.Subset.refl _) (fun ha => hq ▸ ha) (fun hlost => by simpa [link, hlink] using hlost)
  cases x
  case issue => exact absurd rfl hx
  case fail => exact h.failStep hi hq hl
  case deem => exact h.deemStep hsome hq
  case reconcile => exact h.reconcileStep
  case links => exact k.linksStep h
  case window => exact k.windowStep h
  case hold =>
    have hcounted : HeldOrLost a (s.updCli (fun c => { c with holdCount := s.holdAfter })) := h
    simp only [State.runStep, holdStep]
    split
    · exact hcounted.requestTrip hsome _
    · exact hcounted
  case sequencer =>
    have hgap : HeldOrLost a s.gapStep := h.congr (by simp) (by simp) (by simp [link])
    simp only [State.runStep, sequencerStep]
    repeat' split
    · exact hgap.requestTrip hsome _
    · have hstate := UrgedAt.stageProgress (UrgedAt.refl a.port s.gapStep)
      exact hgap.congr (stageProgress_queue_sublist _).subset (fun ha => stageProgress_queue_issued ha hsome)
        (fun hlost => hstate.state.trans hlost)
    · exact h
  case compose =>
    refine h.congr (by simp [State.runStep]) (by simp [State.runStep]) fun hlost => ?_
    simp only [State.runStep, composeStep, mapLinks_link, composedPort]
    split <;> exact hlost
  case supply => exact hkept (by simp [State.runStep, supplyStep]) (by simp [State.runStep])
  case settle => exact hkept s.settleStep_queue (by simp [State.runStep])
  all_goals exact hkept (by simp [State.runStep]) (by simp [State.runStep])

/-! An episode is open in INHIBIT, ISOLATE and REMAP -/

/-- In INHIBIT, ISOLATE and REMAP an episode is open (R34). -/
def Opened (s : State) : Prop := s.rsq.stage = .inhibit ∨ s.rsq.stage = .isolate ∨ s.rsq.stage = .remap → s.rsq.nest ≠ []

theorem Opened.congr (h : s.Opened) (hr : t.rsq = s.rsq) : t.Opened := by
  rw [Opened, hr]
  exact h

theorem opened_of_nest (h : s.rsq.nest ≠ []) : s.Opened := fun _ => h

theorem opened_of_stage (h : s.rsq.stage ≠ .inhibit ∧ s.rsq.stage ≠ .isolate ∧ s.rsq.stage ≠ .remap) : s.Opened := by
  obtain ⟨hinhibit, hisolate, hremap⟩ := h
  exact fun hs => hs.elim (absurd · hinhibit) fun hs => hs.elim (absurd · hisolate) (absurd · hremap)

theorem Opened.requestTrip (h : s.Opened) (r : TripRequest) : (s.requestTrip r).Opened := by
  by_cases hm : s.mode = .run
  · rw [requestTrip_of_run hm]
    refine opened_of_stage ?_
    rw [departRun_eq]
    simp
  · rwa [requestTrip_of_not_run hm]

theorem opened_push (s : State) (st : Stage) (gap : Nat) (policy : Option PolicyEntry) : (s.push st gap policy).Opened :=
  opened_of_nest (by rw [push_rsq]; simp)

theorem Opened.latchEffect (h : s.Opened) (p : Port) : (s.latchEffect p).1.Opened := by
  simp only [State.latchEffect, latchActive, openEpisode, joinRecovery, pushBack]
  repeat' split
  all_goals first
    | with_reducible exact opened_push _ _ _ _
    | exact h.congr (by simp)

theorem Opened.stageProgress (h : s.Opened) : s.stageProgress.Opened := by
  have hrebuilt : s.rebuild.applyRecovery.Opened := h.congr (by simp)
  have hdeferred (l : List Port) : (l.foldl makeIsolating s.rebuild.applyRecovery).Opened := hrebuilt.congr (by simp)
  cases hs : s.rsq.stage <;> simp only [State.stageProgress, hs]
  case normal => exact h
  case inhibit =>
    have hn := h (.inl hs)
    simp only [inhibitProgress, enterIsolate]
    repeat' split
    · exact h
    · exact opened_of_nest (by simpa using hn)
    · exact opened_of_nest hn
  case isolate =>
    split
    · exact opened_of_nest (h (.inr (.inl hs)))
    · exact h
  case remap =>
    simp only [remapCompletion, acceptDeferred]
    repeat' split
    · exact hrebuilt.requestTrip _
    · exact opened_of_stage (by simp [enterAlign])
    · exact (hdeferred _).requestTrip _
    · exact (hdeferred _).requestTrip _
    · exact opened_push _ _ _ _
  case align =>
    split
    · exact opened_of_stage (by simp [enterAwaitGrant])
    · exact h
  case awaitGrant =>
    split
    · exact opened_of_stage (by simp [enterResume])
    · exact h
  case resume =>
    refine opened_of_stage ?_
    simp only [resumeProgress, endResume]
    repeat' split
    all_goals simp [hs]

theorem opened_blockKept : BlockKept Opened := by
  constructor
  case toLatchKept =>
    refine ⟨⟨?record, ?raise, ?trip, ?effect, ?count, ?outside, ?freed⟩, ?countPort, ?cutPort⟩
    case trip => exact fun _ r h => h.requestTrip r
    case effect => exact fun _ p _ h => h.latchEffect p
    all_goals
      intros
      exact Opened.congr ‹_› (by simp)
  case gap =>
    intro s _ h
    rw [gapStep]
    split
    · exact h
    · exact h
  case progress => exact fun s _ h => h.stageProgress
  all_goals
    intros
    exact Opened.congr ‹_› (by simp)

/-- Out of RUN, or in ISOLATE with an episode open. -/
def MayGoOn (s : State) : Prop := s.mode ≠ .run ∨ (s.rsq.stage = .isolate ∧ s.rsq.nest ≠ [])

theorem MayGoOn.congr (h : s.MayGoOn) (hm : t.mode = s.mode) (hr : t.rsq = s.rsq) : t.MayGoOn := by
  rw [MayGoOn, hm, hr]
  exact h

theorem MayGoOn.latchEffect (h : s.MayGoOn) (hm : s.mode = .run) (p : Port) : (s.latchEffect p).1.MayGoOn := by
  obtain ⟨hs, hn⟩ := h.resolve_left (fun h => h hm)
  refine .inr ?_
  simp only [State.latchEffect, latchActive, joinRecovery, hs, if_neg hn]
  repeat' split
  all_goals simp [hs, hn]

theorem mayGoOn_latchKept : LatchKept MayGoOn := by
  refine ⟨⟨?record, ?raise, ?trip, ?effect, ?count, ?outside, ?freed⟩, ?countPort, ?cutPort⟩
  case trip =>
    intro s r h
    by_cases hm : s.mode = .run
    · rw [requestTrip_of_run hm]
      exact .inl (by rw [departRun_mode]; decide)
    · rwa [requestTrip_of_not_run hm]
  case effect => exact fun _ p hm h => h.latchEffect hm p
  all_goals
    intros
    exact MayGoOn.congr ‹_› (by simp) (by simp)

/-- What the rules let be taken after the issue step keeps mode and stage where the head entry may be issued. -/
theorem MayGoOn.runStep (h : s.MayGoOn) (hx : x ∉ PsStep.needs .issue) : (s.runStep x).MayGoOn := by
  cases x
  case links => exact mayGoOn_latchKept.linksStep h
  case hold | supply | fail | select | deem | reconcile | settle | sequencer | window => simp [PsStep.needs] at hx
  all_goals exact h.congr (by simp [State.runStep]) (by simp [State.runStep])

/-! The event and the whole period start -/

theorem issueEvent_of (hx : .issue ∉ ((s.openPeriod.setSupply ok).prepare .issue).ps.taken)
    (h : ((s.openPeriod.setSupply ok).prepare .issue).issuable?.isSome = true) :
    s.issueEvent ok = (((s.openPeriod.setSupply ok).prepare .issue).taking .issue).issueStep := by
  simp only [issueEvent]
  rw [if_pos (by simp [hx, h]), takeOne_of_not_taken hx]
  rfl

theorem issueEvent_of_none (h : ((s.openPeriod.setSupply ok).prepare .issue).issuable? = none) : s.issueEvent ok = s := by
  simp only [issueEvent]
  rw [if_neg (by simp [h])]

theorem issuable?_of_head {rest : List Actuation} (hq : s.bau.queue = a :: rest) (hi : a.issued = none)
    (hs : s.bau.supply.effective = true) (hm : s.mayIssue = true) : s.issuable? = some a := by
  rw [issuable?, if_pos (by simp [hs, hm]), hq]
  simp [Option.filter_some, hi]

theorem issueStep_of_some (h : s.issuable? = some a) : s.issueStep = { s with
    bau := { s.bau with queue := { a with issued := some s.ctu.counter } :: s.bau.queue.drop 1 }
    roster := s.roster.set a.port.val { s.entry a.port with bypassOrder := a.dir } } := by
  rw [issueStep, h]
  rfl

theorem mayIssue_iff : s.mayIssue = true ↔ s.mode ≠ .run ∨ s.rsq.stage = .isolate := by simp [mayIssue]

theorem issuable?_none_of (h : s.bau.supply.effective = false ∨ s.mayIssue = false ∨ s.bau.queue = [] ∨
    ∃ a rest, s.bau.queue = a :: rest ∧ a.issued.isSome = true) : s.issuable? = none := by
  rw [issuable?]
  rcases h with h | h | h | ⟨a, rest, h, hi⟩
  · simp [h]
  · simp [h]
  · simp [h]
  · simp [h, Option.filter_some, Option.isSome_iff_ne_none.mp hi]

theorem opened_periodKept : PeriodKept Opened :=
  opened_blockKept.periodKept (fun _ h => h.congr (by simp))
    (fun s h => replyEnds_keeps h (fun _ => opened_of_stage (by
        rw [s.warmReset_stageLaw.stage (by rw [warmReset_mode]; exact modeByLine_ne_run s)]
        simp)) (fun _ => h.congr (by simp)))
    (fun _ _ h => h.congr rfl) (fun _ _ h => h.congr rfl)

/-- What a period start keeps holds when it has begun. -/
theorem periodBegun_keeps {P : State → Prop} (k : PeriodKept P) (h : P s) (ok : Bool) : P (s.periodBegun ok) :=
  k.supply _ ok (k.opening _ (k.sendDue h))

/-- Where the head entry is not to be issued after a period start, it was not. -/
theorem Reached.not_issued (hr : Reached may s t) (hn : s.ps.taken = []) (hall : ∀ x, x ∈ t.ps.taken) (hq : s.QueueLaw)
    (ho : s.Opened) (hl : 1 ≤ s.settings.confirmLimit)
    (h : (s.bau.supply.sample s.lines.bypassSupplyOk).effective = false ∨ (t.mode = .run ∧ t.rsq.stage ≠ .isolate) ∨
      ∃ a rest, s.bau.queue = a :: rest ∧ a.issued.isSome = true ∧ a ∈ t.bau.queue) : NotIssued s t := by
  obtain ⟨u, hu, hxu, hneeds, -, hafter⟩ := hr.split (x := .issue) (by simp [hn]) (hall _)
  have hcourse := hu.courseAt hn
  have hissueTaken : .issue ∈ ((u.taking .issue).runStep .issue).ps.taken := by
    rw [taking_runStep_taken]
    exact List.mem_cons_self ..
  have hbefore := hu.notIssued (.inr hxu)
  have hlast := hafter.notIssued (.inl hissueTaken)
  suffices hnone : u.issuable? = none by
    have hsame : (u.taking .issue).runStep .issue = u.taking .issue :=
      issueStep_of_none (s := u.taking .issue) hnone
    rw [hsame] at hlast
    refine ⟨fun a ha hi => hbefore.inFlight a (hlast.inFlight a ha hi) hi, fun p => ?_⟩
    rcases hlast.orders p with ⟨horder, hblind⟩ | ⟨hsight, hdeemed⟩
    · rw [horder, hblind]
      exact hbefore.orders p
    · rcases hbefore.orders p with ⟨-, hblind⟩ | ⟨hs, -⟩
      · exact .inr ⟨hblind ▸ hsight, hdeemed⟩
      · exact .inr ⟨hs, hdeemed⟩
  rcases h with hsupply | ⟨hmode, hstage⟩ | ⟨a, rest, hqueue, hi, ha⟩
  · have hsampled := hcourse.supply
    rw [if_pos (hneeds (by simp [PsStep.needs]))] at hsampled
    exact issuable?_none_of (.inl (hsampled ▸ hsupply))
  · refine issuable?_none_of (.inr (.inl ?_))
    by_contra hmay
    have hopen : u.Opened := hu.keeps (P := Opened) ho fun v x _ _ _ _ hv => opened_blockKept.runStep (s := v.taking x) hv x
    have hgo : u.MayGoOn := (mayIssue_iff.mp (by simpa using hmay)).imp_right fun hs => ⟨hs, hopen (.inr (.inl hs))⟩
    have hissue : ((u.taking .issue).runStep .issue).MayGoOn := MayGoOn.runStep (s := u.taking .issue) hgo (by simp [PsStep.needs])
    have hend : t.MayGoOn := hafter.keeps (P := MayGoOn) hissue fun v x hv hx _ _ hgo => by
      refine MayGoOn.runStep (s := v.taking x) hgo fun hm => hx (hv.kept ?_)
      rw [taking_runStep_taken]
      exact List.mem_cons_of_mem _ (hneeds hm)
    rcases hend with hend | ⟨hend, -⟩
    · exact hend hmode
    · exact hstage hend
  · by_contra hne
    obtain ⟨h, hsome⟩ := Option.ne_none_iff_exists'.mp hne
    obtain ⟨hhead, hwaits⟩ := issuable?_eq_some hsome
    have hlaw : u.QueueLaw := hu.keeps (P := QueueLaw) hq fun v x _ _ _ _ hv => queueLaw_blockKept.runStep (s := v.taking x) (hv.congr rfl) x
    obtain ⟨tail, htail⟩ := List.head?_eq_some_iff.mp hhead
    have hwaiting : ∀ e ∈ tail, e.issued = none := by simpa [htail] using hlaw.waiting
    have hissued := issueStep_of_some (s := u.taking .issue) hsome
    have hmem := hlast.inFlight a ha hi
    rw [show (u.taking .issue).runStep .issue = (u.taking .issue).issueStep from rfl, hissued] at hmem
    simp only [State.taking, htail, List.drop_one, List.tail_cons, List.mem_cons] at hmem
    rcases hmem with rfl | hmem
    · have hcounter : u.ctu.counter = s.ctu.counter := Carrier.counter_of_clock hcourse.clock
      have hheld : HeldOrLost { h with issued := some u.ctu.counter } u := by
        refine hu.keeps (P := HeldOrLost { h with issued := some u.ctu.counter }) (.inl (hqueue ▸ List.mem_cons_self ..))
          fun v x hv hx _ ht hkept => ?_
        have hvcourse := hv.courseAt hn
        have hvcounter : v.ctu.counter = s.ctu.counter := Carrier.counter_of_clock hvcourse.clock
        have hvlaw : v.QueueLaw := hv.keeps (P := QueueLaw) hq fun v x _ _ _ _ hv => queueLaw_blockKept.runStep (s := v.taking x) (hv.congr rfl) x
        exact HeldOrLost.runStep (s := v.taking x) hkept (by simp [State.taking, hcounter, hvcounter]) (hvlaw.congr rfl)
          (by rw [show (v.taking x).settings = v.settings from rfl, hvcourse.settings]; exact hl) (fun hx => hxu (hx ▸ ht))
      rcases hheld with hin | ⟨-, hnone⟩
      · rw [htail] at hin
        rcases List.mem_cons.mp hin with heq | hin
        · rw [← heq] at hwaits
          cases hwaits
        · exact absurd (hwaiting _ hin) (by simp)
      · exact hnone h (htail ▸ List.mem_cons_self ..) rfl
    · rw [hwaiting a hmem] at hi
      cases hi

end State

open State in
/-- Settles O57: what the event issues, and why a whole period start issues nothing else. -/
theorem headEntryIssued : Obligations.HeadEntryIssued := by
  unfold Obligations.HeadEntryIssued
  refine ⟨?_, ?_⟩
  · intro ok s hreset u supply
    have hu : (s.openPeriod.setSupply ok).prepare .issue = u := rfl
    refine ⟨fun a rest hx hq hi hs hm => ?_, fun h => ?_⟩
    · have hsome : u.issuable? = some a := issuable?_of_head hq hi hs (mayIssue_iff.mpr hm)
      have hissued := issueStep_of_some (s := u.taking .issue) hsome
      rw [exec, execActuationIssue, unlessHeld_of_running hreset, issueEvent_of (hu ▸ hx) (hu ▸ by simp [hsome]), hu, hissued]
      simp only [State.taking, hq, List.drop_one, List.tail_cons]
      rfl
    · have hnone : u.issuable? = none := issuable?_none_of (h.imp_right (Or.imp_left fun ⟨hm, hs⟩ => by
        rw [mayIssue, hm, beq_eq_false_iff_ne.mpr hs]
        rfl))
      rw [exec, execActuationIssue, unlessHeld_of_running hreset, issueEvent_of_none (hu ▸ hnone)]
  · intro ok order s hs hq hgap hcarrier b supply
    obtain ⟨hreached, hall⟩ := s.periodEnd_reached ok order
    have hlaw := periodBegun_keeps queueLaw_commandKept.period hq ok
    have hopened := periodBegun_keeps opened_periodKept hgap.opened ok
    have hlimit : 1 ≤ (s.periodBegun ok).settings.confirmLimit := by
      have hsettings : (s.periodBegun ok).settings = s.settings := by simp [periodBegun]
      have hrecord := hcarrier.record
      simp only [settingsChecks, within, List.all_cons, id, Bool.and_eq_true, decide_eq_true_eq] at hrecord
      rw [hsettings]
      omega
    have hbegun := s.periodBegun_eq ok
    have hexec := hs.exec_periodStart ok order
    generalize s.periodEnd ok order = t at hreached hall hexec
    generalize s.periodBegun ok = u at hreached hbegun hlaw hopened hlimit
    have hqueue : u.bau = b.bau := by rw [hbegun]
    have hentry (p : Port) : u.entry p = b.entry p := by rw [hbegun]; rfl
    refine ⟨_, hexec, fun h => ?_⟩
    have hkept := hreached.not_issued (by rw [hbegun]; rfl) hall hlaw hopened hlimit (by
      rw [hbegun]
      exact h)
    refine ⟨fun a ha hi => hqueue ▸ hkept.inFlight a ha hi, fun p => ?_⟩
    rw [← hentry p]
    exact (hkept.orders p).imp_left fun h => h.1

end Machine
end Sys2Proof

/-! ### Reconciliation and the settle count (R54, R55, R67, R68) -/

namespace Sys2Proof

namespace Machine

/-- The standing order of an entry, case by case (R2). -/
theorem RosterEntry.standing_eq_closed {e : RosterEntry} : e.standing = some .closed ↔
    e.role = .isolating ∨ e.role = .bypassed ∨ e.role = .failed ∨ (e.role = .spare ∧ e.insertionTarget = none) := by
  rw [RosterEntry.standing]
  cases e.role
  case spare => cases e.insertionTarget <;> simp
  all_goals simp

theorem RosterEntry.standing_eq_opened {e : RosterEntry} : e.standing = some .opened ↔
    e.role = .active ∨ (e.role = .spare ∧ e.insertionTarget.isSome = true) := by
  rw [RosterEntry.standing]
  cases e.role
  case spare => cases e.insertionTarget <;> simp
  all_goals simp

theorem Order.ne_closed_iff {o : Order} : o ≠ .closed ↔ o = .opened := by cases o <;> simp

theorem Order.ne_opened_iff {o : Order} : o ≠ .opened ↔ o = .closed := by cases o <;> simp

namespace State

variable {s t u : State} {x : PsStep} {p q : Port} {d : Order} {may : List PsStep → PsStep → Prop}

/-- The ports that reconciliation looks at (R54; log 31). -/
def Examined (s : State) (p : Port) : Prop :=
  ((s.link p).state = .up ∨ (s.link p).state = .missing) ∧ (∀ a ∈ s.bau.queue, a.port ≠ p) ∧ s.ps.failed ≠ some p

theorem queued_eq_false_iff : s.queued p = false ↔ ∀ a ∈ s.bau.queue, a.port ≠ p := by simp [queued]

theorem reconcileDir?_eq_some : s.reconcileDir? p = some d ↔
    s.Examined p ∧ (s.entry p).standing = some d ∧ ((s.entry p).bypassOrder ≠ d ∨ s.bau.retry[p.val] = true) := by
  simp only [reconcileDir?, Examined]
  split
  · rename_i h
    obtain ⟨hup, hqueued, hfailed⟩ := h
    have hnone := queued_eq_false_iff.mp (by simpa using hqueued)
    simp only [Option.filter_eq_some_iff, Bool.or_eq_true, bne_iff_ne]
    exact ⟨fun ⟨hs, ho⟩ => ⟨⟨hup, hnone, hfailed⟩, hs, ho⟩, fun ⟨_, hs, ho⟩ => ⟨hs, ho⟩⟩
  · rename_i h
    simp only [reduceCtorEq, false_iff, not_and]
    rintro ⟨hup, hqueued, hfailed⟩
    exact absurd ⟨hup, by simpa using queued_eq_false_iff.mpr hqueued, hfailed⟩ h

theorem mem_reconcile_closed : p ∈ allPorts.filter (fun p => s.reconcileDir? p = some .closed) ↔
    s.Examined p ∧ ((s.entry p).bypassOrder = .opened ∨ s.bau.retry[p.val] = true) ∧
      ((s.entry p).role = .isolating ∨ (s.entry p).role = .bypassed ∨ (s.entry p).role = .failed ∨
        ((s.entry p).role = .spare ∧ (s.entry p).insertionTarget = none)) := by
  simp only [List.mem_filter, mem_allPorts, true_and, decide_eq_true_eq, reconcileDir?_eq_some,
    RosterEntry.standing_eq_closed, Order.ne_closed_iff]
  exact and_congr_right fun _ => and_comm

theorem mem_reconcile_opened : p ∈ allPorts.filter (fun p => s.reconcileDir? p = some .opened) ↔
    s.Examined p ∧ ((s.entry p).bypassOrder = .closed ∨ s.bau.retry[p.val] = true) ∧
      ((s.entry p).role = .active ∨ ((s.entry p).role = .spare ∧ (s.entry p).insertionTarget.isSome = true)) := by
  simp only [List.mem_filter, mem_allPorts, true_and, decide_eq_true_eq, reconcileDir?_eq_some,
    RosterEntry.standing_eq_opened, Order.ne_opened_iff]
  exact and_congr_right fun _ => and_comm

theorem allPorts_filter_ascending (f : Port → Bool) : (allPorts.filter f).Pairwise (fun p q => p < q) :=
  (List.pairwise_lt_finRange 24).filter f

/-- R67: the completion condition of ISOLATE, cell by cell. -/
theorem isolateComplete_iff : s.isolateComplete = true ↔ ∀ p,
    ((s.entry p).role = .isolating → (s.entry p).blind = true ∨
      ((s.entry p).bypassOrder = .closed ∧ (s.entry p).contact = .closed ∧ ∀ a ∈ s.bau.queue, a.port ≠ p)) ∧
    ((s.entry p).role = .spare → (s.entry p).insertionTarget.isSome = true →
      (s.entry p).bypassOrder = .opened ∧ (s.entry p).contact = .opened ∧ ∀ a ∈ s.bau.queue, a.port ≠ p) := by
  simp only [isolateComplete, List.all_eq_true, mem_allPorts, true_implies]
  refine forall_congr' fun p => ?_
  cases hr : (s.entry p).role
  case isolating =>
    simp [closureOk, closureConfirmed, ← queued_eq_false_iff, or_comm, and_assoc]
  case spare =>
    cases hi : (s.entry p).insertionTarget <;>
      simp [openingConfirmed, hr, hi, ← queued_eq_false_iff, and_assoc]
  all_goals simp

/-! A period start outside RUN -/

/-- Outside RUN a port's cell keeps what reconciliation looks at, until the port is lost. -/
structure Resting (p : Port) (s t : State) : Prop where
  mode : t.mode ≠ .run
  lost : (s.link p).state = .lost → (t.link p).state = .lost
  cell : (t.link p).state = .lost ∨ ((t.entry p).role = (s.entry p).role ∧
    (t.entry p).insertionTarget = (s.entry p).insertionTarget ∧
    ((t.link p).state = .up ∨ (t.link p).state = .missing ↔ (s.link p).state = .up ∨ (s.link p).state = .missing))

theorem Resting.refl (h : s.mode ≠ .run) (p : Port) : Resting p s s := ⟨h, id, .inr ⟨rfl, rfl, Iff.rfl⟩⟩

theorem Resting.trans (h : Resting p s t) (h' : Resting p t u) : Resting p s u where
  mode := h'.mode
  lost hl := h'.lost (h.lost hl)
  cell := by
    rcases h'.cell with hl | ⟨hr, ht, hi⟩
    · exact .inl hl
    · rcases h.cell with hl | ⟨hr', ht', hi'⟩
      · exact .inl (h'.lost hl)
      · exact .inr ⟨hr.trans hr', ht.trans ht', hi.trans hi'⟩

/-- The same of its bypass order, its retry mark and the port whose failed entry waits. -/
structure Calm (p : Port) (s t : State) : Prop extends Resting p s t where
  order : (t.link p).state = .lost ∨
    ((t.entry p).bypassOrder = (s.entry p).bypassOrder ∧ t.bau.retry[p.val] = s.bau.retry[p.val])
  failed : s.ps.failed ≠ some p → t.ps.failed ≠ some p

theorem Calm.refl (h : s.mode ≠ .run) (p : Port) : Calm p s s := ⟨Resting.refl h p, .inr ⟨rfl, rfl⟩, id⟩

theorem Calm.trans (h : Calm p s t) (h' : Calm p t u) : Calm p s u where
  toResting := h.toResting.trans h'.toResting
  order := by
    rcases h'.order with hl | ⟨ho, hr⟩
    · exact .inl hl
    · exact h.order.imp h'.lost fun ⟨ho', hr'⟩ => ⟨ho.trans ho', hr.trans hr'⟩
  failed hf := h'.failed (h.failed hf)

theorem calm_of_eq (hs : s.mode ≠ .run) (h : t = s) : Calm p s t := h ▸ Calm.refl hs p

theorem calm_of_same (hs : s.mode ≠ .run) (hm : t.mode = s.mode) (he : t.entry p = s.entry p)
    (hl : (t.link p).state = (s.link p).state) (hr : t.bau.retry[p.val] = s.bau.retry[p.val]) (hf : t.ps.failed = s.ps.failed) :
    Calm p s t where
  mode := hm ▸ hs
  lost h := hl.trans h
  cell := .inr ⟨by rw [he], by rw [he], by rw [hl]⟩
  order := .inr ⟨by rw [he], hr⟩
  failed h := hf ▸ h

theorem losesPort_iff : s.losesPort p = true ↔ s.ReachesLimit p := by
  refine ⟨fun h => ?_, ReachesLimit.losesPort⟩
  simp only [losesPort, linkingCounts, misses, Bool.or_eq_true, Bool.and_eq_true, beq_iff_eq, decide_eq_true_eq,
    Bool.not_eq_true'] at h
  rcases h with ⟨⟨hl, ht⟩, hc⟩ | ⟨⟨hu, ha⟩, hc⟩
  · exact .inl ⟨hl, ht, hc⟩
  · exact .inr ⟨hu, ha, hc⟩

theorem judgePort_of_not (h : ¬s.ReachesLimit p) :
    s.judgePort p = (s.countPort p).updPs (fun q => { q with judged := p :: q.judged }) := if_neg (mt losesPort_iff.mp h)

theorem countPort_link_of_ne (h : q ≠ p) : (s.countPort q).link p = s.link p := by
  simp only [countPort]
  repeat' split
  · rw [updLink_link, if_neg h]
  · rw [updLink_link, if_neg h]
  · rfl

/-- The counts of a port leave it linked as it was, or missing where it was up. -/
theorem countPort_state (s : State) (p : Port) : ((s.countPort p).link p).state = (s.link p).state ∨
    (((s.countPort p).link p).state = .missing ∧ ((s.link p).state = .up ∨ (s.link p).state = .missing)) := by
  simp only [countPort]
  repeat' split
  · rw [updLink_link, if_pos rfl]
    exact .inl rfl
  · rename_i h
    rw [updLink_link, if_pos rfl]
    refine .inr ⟨rfl, ?_⟩
    simp only [misses, Bool.and_eq_true, Bool.or_eq_true, beq_iff_eq] at h
    exact h.1
  · exact .inl rfl

/-- Outside RUN the loss of a cell's port is none of another cell's. -/
theorem loseCell_outside (hm : s.mode ≠ .run) (p : Port) :
    (s.loseCell p).mode = s.mode ∧ (s.loseCell p).links = s.links ∧ (s.loseCell p).bau = s.bau ∧
      (s.loseCell p).ps.failed = s.ps.failed ∧ ∀ q, q ≠ p →
        (s.loseCell p).entry q = { s.entry q with position := ((s.loseCell p).entry q).position } := by
  have hspares (t : State) (ht : t.mode = s.mode) : t.reselect = t := by
    have hnot : t.selectSpares = t := selectSpares_of_not_allowed fun h => hm (ht ▸ (spareAllowed_iff.mp h).1)
    rw [reselect]
    split <;> first | exact hnot | rfl
  have hlatch (l : Latch) : (s.takeLatch l).mode = s.mode ∧ (s.takeLatch l).links = s.links ∧ (s.takeLatch l).bau = s.bau ∧
      (s.takeLatch l).ps.failed = s.ps.failed ∧ ∀ q, q ≠ l.port →
        (s.takeLatch l).entry q = { s.entry q with position := ((s.takeLatch l).entry q).position } := by
    have hleft (f : RosterEntry → RosterEntry) (q : Port) (hq : q ≠ l.port) (m st depth) :
        (((s.updEntry l.port f).renumberPhase (phaseOf l.port)).countLatch l m st depth).entry q = { s.entry q with
          position := ((((s.updEntry l.port f).renumberPhase (phaseOf l.port)).countLatch l m st depth).entry q).position } := by
      rw [countLatch_entry_ne _ _ _ _ hq, renumberPhase_entry, updEntry_entry, if_neg (Ne.symm hq)]
      split
      · rw [renumbered_eq]
      · rfl
    rw [takeLatch_outside hm, State.latchOutsideRun]
    split
    · exact ⟨by simp, by simp, by simp, by simp, fun q hq => hleft _ q hq _ _ _⟩
    · exact ⟨by simp, by simp, by simp, by simp, fun q hq => hleft _ q hq _ _ _⟩
    all_goals exact ⟨rfl, rfl, rfl, rfl, fun _ _ => rfl⟩
  simp only [loseCell, loseIsolating]
  split
  · split
    · rw [hspares _ (by simp)]
      exact ⟨by simp, by simp, by simp, by simp, fun q hq => by rw [deselect, updEntry_entry, if_neg (Ne.symm hq)]⟩
    · exact ⟨rfl, rfl, rfl, rfl, fun _ _ => rfl⟩
  · exact hlatch _
  · rw [if_neg (fun h => hm h.1)]
    exact ⟨rfl, rfl, rfl, rfl, fun _ _ => rfl⟩
  all_goals exact ⟨rfl, rfl, rfl, rfl, fun _ _ => rfl⟩

theorem judgePort_calm (hm : s.mode ≠ .run) (p q : Port) : Calm p s (s.judgePort q) := by
  by_cases h : s.ReachesLimit q
  · rw [h.judgePort]
    obtain ⟨hmode, hlinks, hbau, hfailed, hentries⟩ := loseCell_outside (s := s.withLostPort q) hm q
    have hlink : ((s.withLostPort q).loseCell q).link p = (s.withLostPort q).link p := by simp [link, hlinks]
    by_cases hq : q = p
    · subst hq
      have hlost : (((s.withLostPort q).loseCell q).link q).state = .lost := by rw [hlink, (withLostPort_link_self s q).1]
      exact ⟨⟨hmode ▸ hm, fun _ => hlost, .inl hlost⟩, .inl hlost, fun hf => by rw [hfailed]; exact hf⟩
    · have hstate : ((s.withLostPort q).loseCell q).link p = s.link p := by
        rw [hlink, withLostPort_link_of_ne s (Ne.symm hq)]
      have hentry := hentries p (Ne.symm hq)
      rw [withLostPort_entry, if_neg hq] at hentry
      refine ⟨⟨hmode ▸ hm, fun hl => by rw [hstate, hl], .inr ⟨by rw [hentry], by rw [hentry], by rw [hstate]⟩⟩,
        .inr ⟨by rw [hentry], by rw [hbau]; rfl⟩, fun hf => by rw [hfailed]; exact hf⟩
  · rw [judgePort_of_not h]
    have hentry : ((s.countPort q).updPs (fun r => { r with judged := q :: r.judged })).entry p = s.entry p := by
      simp [entry]
    have hlink : ((s.countPort q).updPs (fun r => { r with judged := q :: r.judged })).link p = (s.countPort q).link p := rfl
    refine ⟨⟨by simpa using hm, fun hl => ?_, .inr ⟨by rw [hentry], by rw [hentry], ?_⟩⟩, .inr ⟨by rw [hentry], by simp⟩,
      by simp⟩
    · rw [hlink]
      by_cases hq : q = p
      · subst hq
        rcases s.countPort_state q with hs | ⟨-, hs | hs⟩
        · exact hs.trans hl
        · rw [hl] at hs
          cases hs
        · rw [hl] at hs
          cases hs
      · rw [countPort_link_of_ne hq, hl]
    · rw [hlink]
      by_cases hq : q = p
      · subst hq
        rcases s.countPort_state q with hs | ⟨hs, hup⟩
        · rw [hs]
        · simp [hs, hup]
      · rw [countPort_link_of_ne hq]

theorem linksStep_calm (hm : s.mode ≠ .run) (p : Port) : Calm p s s.linksStep :=
  foldl_keeps (P := Calm p s) (fun _ q h => h.trans (judgePort_calm h.mode p q)) _ (Calm.refl hm p)

theorem openFailed_calm (hm : s.mode ≠ .run) (hq : q ≠ p) : Calm p s (s.openFailed q) := by
  by_cases hr : (s.entry q).role = .spare
  · have hspare := openFailed_spare hr
    refine calm_of_same hm (by rw [hspare]) ?_ (by rw [hspare]; rfl) (by rw [hspare]) (by rw [hspare])
    rw [entry, hspare]
    simp [Vector.getElem_set_ne _ _ (fun hv => hq (Fin.ext hv)), entry]
  · have hsame : Calm p s ({ s with cli := { s.cli with flags := withFlag s.cli.flags .bypassFail } } : State) :=
      calm_of_same hm rfl rfl rfl rfl rfl
    rw [openFailed_other hr]
    refine ⟨⟨hsame.mode, hsame.lost, hsame.cell⟩, hsame.order, fun hf => ?_⟩
    dsimp only
    split
    · exact fun h => hq (Option.some.inj h)
    · exact hf

theorem failStep_calm (hm : s.mode ≠ .run) (hq : ∀ a ∈ s.bau.queue, a.port ≠ p) : Calm p s s.failStep := by
  simp only [failStep]
  split
  · rename_i a ha
    have hne : a.port ≠ p := hq a (List.mem_of_mem_head? (Option.filter_eq_some_iff.mp ha).1)
    have hretried : Calm p s (s.setRetry a.port true) :=
      calm_of_same hm rfl rfl rfl (by simp [setRetry, Vector.getElem_set_ne _ _ (fun hv => hne (Fin.ext hv))]) rfl
    split
    · split
      · have hraised : (s.setRetry a.port true).closeFailed a.port = (s.setRetry a.port true).raise .bypassFail :=
          if_neg fun h => hm h.2.1
        rw [hraised]
        have hdropped : Calm p s ((s.setRetry a.port true).raise .bypassFail).dropHead :=
          hretried.trans (calm_of_same hm rfl rfl rfl rfl rfl)
        exact ⟨⟨hdropped.mode, hdropped.lost, hdropped.cell⟩, hdropped.order, fun _ h => hne (Option.some.inj h)⟩
      · have hdropped : Calm p s (s.setRetry a.port true).dropHead := hretried.trans (calm_of_same hm rfl rfl rfl rfl rfl)
        exact hdropped.trans (openFailed_calm hdropped.mode hne)
    · exact Calm.refl hm p
  · exact Calm.refl hm p

theorem deemStep_calm (hm : s.mode ≠ .run) (p : Port) : Calm p s s.deemStep := by
  obtain ⟨hrest, hin, hout⟩ := foldl_deemClosed (allPorts.filter s.deemable) (allPorts_nodup.filter _) s
  rw [← State.deemStep] at hrest
  have hlink : s.deemStep.link p = s.link p := by simp [link]
  by_cases hp : p ∈ allPorts.filter s.deemable
  · obtain ⟨-, hlost, -⟩ := deemable_iff.mp (List.mem_filter.mp hp).2
    have hlost' : (s.deemStep.link p).state = .lost := by rw [hlink, hlost]
    exact ⟨⟨by simpa using hm, fun _ => hlost', .inl hlost'⟩, .inl hlost', by simp⟩
  · have hentry : s.deemStep.entry p = s.entry p := hout p hp
    exact calm_of_same hm (by simp) hentry (by rw [hlink]) (by rw [hrest]) (by simp)

theorem reselect_outside (hm : s.mode ≠ .run) : s.reselect = s := by
  have hnot : s.selectSpares = s := selectSpares_of_not_allowed fun h => hm (spareAllowed_iff.mp h).1
  rw [reselect]
  split <;> first | exact hnot | rfl

theorem windowStep_outside (hm : s.mode ≠ .run) : s.windowStep = s := by
  have hnone : s.windowFailures = [] := if_neg fun h => by simp [aligning, hm] at h
  simp only [windowStep, hnone, List.foldl_nil, if_true]

theorem holdStep_outside (hm : s.mode ≠ .run) : s.holdStep = s.updCli (fun c => { c with holdCount := s.holdAfter }) := by
  simp only [holdStep]
  split
  · rw [requestTrip_of_not_run (by simpa using hm)]
  · rfl

/-- Outside RUN a step other than the issue leaves a port at rest whose entry in flight does not fail. -/
theorem runStep_calm (hm : s.mode ≠ .run) (hx : x ≠ .issue) (hq : x = .fail → ∀ a ∈ s.bau.queue, a.port ≠ p) :
    Calm p s (s.runStep x) := by
  cases x
  case issue => exact absurd rfl hx
  case fail => exact failStep_calm hm (hq rfl)
  case deem => exact deemStep_calm hm p
  case links => exact linksStep_calm hm p
  case window => exact calm_of_eq hm (windowStep_outside hm)
  case hold =>
    rw [runStep, holdStep_outside hm]
    exact calm_of_same hm rfl rfl rfl rfl rfl
  case sequencer => exact calm_of_eq hm (sequencerStep_idle (.inl hm))
  case settle => exact calm_of_eq hm (if_neg fun h => hm h.1)
  case select =>
    simp only [runStep, selectStep]
    split
    · rw [reselect_outside (by exact hm)]
      exact calm_of_same hm rfl rfl rfl rfl rfl
    · exact Calm.refl hm p
  case leak =>
    have hentry : (s.leakStep.entry p).role = (s.entry p).role ∧
        (s.leakStep.entry p).insertionTarget = (s.entry p).insertionTarget ∧
        (s.leakStep.entry p).bypassOrder = (s.entry p).bypassOrder := by
      rw [leakStep]
      split <;> simp [mapEntries, entry]
    obtain ⟨hrole, htarget, horder⟩ := hentry
    exact ⟨⟨by simpa [runStep] using hm, fun hl => by simpa [runStep, link] using hl,
      .inr ⟨hrole, htarget, by simp [runStep, link]⟩⟩, .inr ⟨horder, by simp [runStep]⟩, by simp [runStep]⟩
  case compose =>
    refine calm_of_same hm (by simp [runStep]) (by simp [runStep, entry]) ?_ (by simp [runStep]) (by simp [runStep])
    simp only [runStep, composeStep, mapLinks_link, composedPort]
    split <;> rfl
  all_goals
    refine calm_of_same hm ?_ ?_ ?_ ?_ ?_
    all_goals simp [runStep, entry, link, supplyStep, reconcileStep]

/-! The entry that reconciliation has appended -/

/-- An entry for a port in a direction, appended in a period. -/
def Enqueued (p : Port) (d : Order) (c : Period) (s : State) : Prop :=
  ∃ a ∈ s.bau.queue, a.port = p ∧ a.dir = d ∧ a.enqueued = c

theorem reconcileStep_enqueued (h : s.reconcileDir? p = some d) : Enqueued p d s.ctu.counter s.reconcileStep := by
  have hmem : (⟨p, d, s.ctu.counter, none⟩ : Actuation) ∈ s.reconcileEntries d :=
    List.mem_map.mpr ⟨p, List.mem_filter.mpr ⟨mem_allPorts p, by simpa using h⟩, rfl⟩
  refine ⟨⟨p, d, s.ctu.counter, none⟩, ?_, rfl, rfl, rfl⟩
  cases d
  · simp [reconcileStep, hmem]
  · simp [reconcileStep, hmem]

theorem Enqueued.mono {c : Period} (h : Enqueued p d c s) (hq : s.bau.queue ⊆ t.bau.queue) : Enqueued p d c t := by
  obtain ⟨a, ha, hrest⟩ := h
  exact ⟨a, hq ha, hrest⟩

theorem Enqueued.issueStep {c : Period} (h : Enqueued p d c s) : Enqueued p d c s.issueStep := by
  cases hi : s.issuable? with
  | none => rwa [issueStep_of_none hi]
  | some a =>
    obtain ⟨rest, hrest⟩ := List.head?_eq_some_iff.mp (issuable?_eq_some hi).1
    obtain ⟨e, he, hp, hd, hc⟩ := h
    rw [issueStep_of_some hi, hrest]
    rw [hrest] at he
    rcases List.mem_cons.mp he with rfl | he
    · exact ⟨{ e with issued := some s.ctu.counter }, List.mem_cons_self .., hp, hd, hc⟩
    · exact ⟨e, List.mem_cons_of_mem _ he, hp, hd, hc⟩

/-- Outside RUN an entry stays in the queue until its port is lost. -/
theorem judgePort_enqueued {c : Period} (hm : s.mode ≠ .run) (q : Port)
    (h : (s.link p).state = .lost ∨ Enqueued p d c s) :
    ((s.judgePort q).link p).state = .lost ∨ Enqueued p d c (s.judgePort q) := by
  have hcalm := judgePort_calm hm p q
  rcases h with hlost | ⟨a, ha, hp, hrest⟩
  · exact .inl (hcalm.lost hlost)
  by_cases hr : s.ReachesLimit q
  · obtain ⟨-, hlinks, hbau, -⟩ := loseCell_outside (s := s.withLostPort q) hm q
    by_cases hq : q = p
    · subst hq
      refine .inl ?_
      rw [hr.judgePort, link, hlinks]
      exact (withLostPort_link_self s q).1
    · refine .inr ⟨a, ?_, hp, hrest⟩
      rw [hr.judgePort, hbau]
      exact List.mem_filter.mpr ⟨ha, by simp [hp, Ne.symm hq]⟩
  · rw [judgePort_of_not hr]
    exact .inr ⟨a, by simpa using ha, hp, hrest⟩

theorem linksStep_enqueued {c : Period} (hm : s.mode ≠ .run) (h : (s.link p).state = .lost ∨ Enqueued p d c s) :
    (s.linksStep.link p).state = .lost ∨ Enqueued p d c s.linksStep := by
  have hboth : s.linksStep.mode ≠ .run ∧ ((s.linksStep.link p).state = .lost ∨ Enqueued p d c s.linksStep) :=
    foldl_keeps (P := fun t => t.mode ≠ .run ∧ ((t.link p).state = .lost ∨ Enqueued p d c t))
      (fun t q h => ⟨(judgePort_calm h.1 p q).mode, judgePort_enqueued h.1 q h.2⟩) _ ⟨hm, h⟩
  exact hboth.2

theorem issueStep_resting (hm : s.mode ≠ .run) (p : Port) : Resting p s s.issueStep := by
  have hlink : s.issueStep.link p = s.link p := by simp [link]
  have hentry : (s.issueStep.entry p).role = (s.entry p).role ∧
      (s.issueStep.entry p).insertionTarget = (s.entry p).insertionTarget := by
    rw [issueStep]
    split
    · rw [updEntry_entry]
      split
      · rename_i hp
        subst hp
        exact ⟨rfl, rfl⟩
      · exact ⟨rfl, rfl⟩
    · exact ⟨rfl, rfl⟩
  exact ⟨by simpa using hm, fun hl => by rw [hlink, hl], .inr ⟨hentry.1, hentry.2, by rw [hlink]⟩⟩

/-- Outside RUN what is taken after reconciliation leaves a port at rest. -/
theorem runStep_resting (hm : s.mode ≠ .run) (hx : x ≠ .fail) : Resting p s (s.runStep x) := by
  by_cases hissue : x = .issue
  · subst hissue
    exact issueStep_resting hm p
  · exact (runStep_calm hm hissue fun h => absurd h hx).toResting

/-- Outside RUN what is taken after reconciliation leaves a port's entry in the queue. -/
theorem runStep_enqueued {c : Period} (hm : s.mode ≠ .run) (hx : x ∉ [PsStep.fail, .deem])
    (h : (s.link p).state = .lost ∨ Enqueued p d c s) :
    ((s.runStep x).link p).state = .lost ∨ Enqueued p d c (s.runStep x) := by
  simp only [List.mem_cons, List.not_mem_nil, or_false, not_or] at hx
  obtain ⟨hfail, hdeem⟩ := hx
  have hrest : Resting p s (s.runStep x) := runStep_resting hm hfail
  have hkept (hq : s.bau.queue ⊆ (s.runStep x).bau.queue) :
      ((s.runStep x).link p).state = .lost ∨ Enqueued p d c (s.runStep x) := h.imp hrest.lost (Enqueued.mono · hq)
  cases x
  case fail => exact absurd rfl hfail
  case deem => exact absurd rfl hdeem
  case issue => exact h.imp hrest.lost Enqueued.issueStep
  case links => exact linksStep_enqueued hm h
  case window => exact hkept (by rw [runStep, windowStep_outside hm]; exact List.Subset.refl _)
  case hold => exact hkept (by rw [runStep, holdStep_outside hm]; exact List.Subset.refl _)
  case sequencer => exact hkept (by rw [runStep, sequencerStep_idle (.inl hm)]; exact List.Subset.refl _)
  case reconcile => exact hkept fun a ha => by simp [runStep, reconcileStep, ha]
  case settle => exact hkept (by rw [runStep, settleStep_queue]; exact List.Subset.refl _)
  case supply => exact hkept (by simp [runStep, supplyStep])
  all_goals exact hkept (by simp [runStep])

/-- No entry joins the queue but by reconciliation. -/
theorem runStep_unqueued (hx : x ∉ [PsStep.reconcile, .issue]) : (s.runStep x).bau.queue ⊆ s.bau.queue := by
  have k : LatchKept (fun t => t.bau.queue ⊆ s.bau.queue) := by
    refine ⟨⟨?record, ?raise, ?trip, ?effect, ?count, ?outside, ?freed⟩, ?countPort, ?cutPort⟩
    case trip => exact fun t r h => List.Subset.trans (requestTrip_queue_sublist t r).subset h
    case cutPort => exact fun t p h => List.Subset.trans (dropWaiting_subset _ p) h
    all_goals
      intro t
      intros
      simpa
  by_cases hcells : x ∈ [PsStep.deem, .reconcile, .issue, .links]
  · simp only [List.mem_cons, List.not_mem_nil, or_false] at hcells
    rcases hcells with rfl | rfl | rfl | rfl
    · exact foldl_keeps (P := fun t => t.bau.queue ⊆ s.bau.queue)
        (fun t p h => List.Subset.trans (t.deemClosed_queue_sublist p).subset h) _ (List.Subset.refl _)
    · simp at hx
    · simp at hx
    · exact k.linksStep (List.Subset.refl _)
  · exact (runStep_cellsKept hcells).queue

theorem periodBegun_link (s : State) (ok : Bool) (p : Port) : (s.periodBegun ok).link p = startLink p (s.sendDue.link p) := by
  have hmapped : (s.periodBegun ok).link p = ((s.sendDue.placeDigest.startCycle).mapLinks startLink).link p := by
    simp [periodBegun, enterPeriod, setSupply, link]
  have hsame : s.sendDue.placeDigest.startCycle.link p = s.sendDue.link p := by simp [link]
  rw [hmapped, mapLinks_link, hsame]

/-- R55: outside RUN a linked port that is not where its standing order would have it has an entry after a period start. -/
theorem Reached.enqueued (hr : Reached may s t) (hn : s.ps.taken = []) (hall : ∀ x, x ∈ t.ps.taken) (hm : s.mode ≠ .run)
    (hf : s.ps.failed = none) (hup : (t.link p).state = .up ∨ (t.link p).state = .missing)
    (hq : ∀ a ∈ s.bau.queue, a.port ≠ p) (hd : (t.entry p).standing = some d)
    (ho : (s.entry p).bypassOrder ≠ d ∨ s.bau.retry[p.val] = true) : Enqueued p d t.ctu.counter t := by
  obtain ⟨u, hu, hxu, hneeds, -, hafter⟩ := hr.split (x := .reconcile) (by simp [hn]) (hall _)
  have hlinked : ∀ {v w : State}, Resting p v w → (w.link p).state = .up ∨ (w.link p).state = .missing →
      (w.entry p).standing = (v.entry p).standing ∧ ((v.link p).state = .up ∨ (v.link p).state = .missing) := by
    intro v w hrest hw
    rcases hrest.cell with hlost | ⟨hrole, htarget, hiff⟩
    · rcases hw with hw | hw <;> rw [hlost] at hw <;> cases hw
    · exact ⟨by rw [RosterEntry.standing, RosterEntry.standing, hrole, htarget], hiff.mp hw⟩
  have hbefore : Calm p s u ∧ u.bau.queue ⊆ s.bau.queue := by
    refine hu.keeps (P := fun v => Calm p s v ∧ v.bau.queue ⊆ s.bau.queue) ⟨Calm.refl hm p, List.Subset.refl _⟩
      fun v x hv hx hnv ht ⟨hcalm, hsub⟩ => ?_
    have hissue : x ≠ .issue := by
      rintro rfl
      exact hxu (hu.closed hn _ ht _ (by simp [PsStep.needs]))
    have hreconcile : x ≠ .reconcile := by
      rintro rfl
      exact hxu ht
    have hstep : Calm p (v.taking x) ((v.taking x).runStep x) :=
      runStep_calm (s := v.taking x) hcalm.mode hissue fun _ a ha => hq a (hsub ha)
    have hqueue := runStep_unqueued (s := v.taking x) (x := x) (by simp [hissue, hreconcile])
    exact ⟨hcalm.trans ⟨⟨hstep.mode, hstep.lost, hstep.cell⟩, hstep.order, hstep.failed⟩, List.Subset.trans hqueue hsub⟩
  obtain ⟨hcalm, hsub⟩ := hbefore
  have htaken : ((u.taking .reconcile).runStep .reconcile).ps.taken = .reconcile :: u.ps.taken := taking_runStep_taken u _
  have hvm : ((u.taking .reconcile).runStep .reconcile).mode ≠ .run := runStep_mode_ne_run (s := u.taking .reconcile) hcalm.mode _
  have hlater {w : State} {x : PsStep} (hw : Reached may ((u.taking .reconcile).runStep .reconcile) w) (hx : x ∉ w.ps.taken) :
      x ∉ [PsStep.fail, .deem] := by
    refine fun hm => hx (hw.kept (htaken ▸ List.mem_cons_of_mem _ (hneeds ?_)))
    simp only [List.mem_cons, List.not_mem_nil, or_false] at hm
    rcases hm with rfl | rfl <;> simp [PsStep.needs]
  have hrest : Resting p ((u.taking .reconcile).runStep .reconcile) t := by
    refine hafter.keeps (P := Resting p ((u.taking .reconcile).runStep .reconcile)) (Resting.refl hvm p)
      fun w x hw hx _ _ hrest => hrest.trans ?_
    have hstep := runStep_resting (s := w.taking x) (p := p) hrest.mode (x := x) (by
      rintro rfl
      exact hlater hw hx (by simp))
    exact ⟨hstep.mode, hstep.lost, hstep.cell⟩
  obtain ⟨hstanding, hlinkv⟩ := hlinked hrest hup
  have hlinku : (u.link p).state = .up ∨ (u.link p).state = .missing := hlinkv
  have hstandingu : (u.entry p).standing = some d := hstanding.symm.trans hd
  have horder : (u.entry p).bypassOrder ≠ d ∨ u.bau.retry[p.val] = true := by
    rcases hcalm.order with hlost | ⟨h, h'⟩
    · rcases hlinku with h | h <;> rw [hlost] at h <;> cases h
    · rwa [h, h']
  have hdir : (u.taking .reconcile).reconcileDir? p = some d :=
    reconcileDir?_eq_some.mpr ⟨⟨hlinku, fun a ha => hq a (hsub ha), hcalm.failed (by simp [hf])⟩, hstandingu, horder⟩
  have hentered : Enqueued p d u.ctu.counter ((u.taking .reconcile).runStep .reconcile) := reconcileStep_enqueued hdir
  have hcounter : t.ctu.counter = u.ctu.counter :=
    Carrier.counter_of_clock ((hr.courseAt hn).clock.trans (hu.courseAt hn).clock.symm)
  have hend := hafter.keeps (P := fun w => w.mode ≠ .run ∧ ((w.link p).state = .lost ∨ Enqueued p d u.ctu.counter w))
    ⟨hvm, .inr hentered⟩ fun w x hw hx _ _ hkept =>
      ⟨runStep_mode_ne_run (s := w.taking x) hkept.1 x, runStep_enqueued (s := w.taking x) hkept.1 (hlater hw hx) hkept.2⟩
  rw [hcounter]
  refine hend.2.resolve_left fun hlost => ?_
  rcases hup with h | h <;> rw [hlost] at h <;> cases h

end State

open State in
/-- Settles O38: the entries reconciliation appends, those a whole period start leaves outside RUN, and the settle count. -/
theorem reconciliationAndSettleCount : Obligations.ReconciliationAndSettleCount := by
  unfold Obligations.ReconciliationAndSettleCount
  refine ⟨fun s => ?_, ?_, ?_⟩
  · refine ⟨_, _, ?_, allPorts_filter_ascending _, allPorts_filter_ascending _,
      fun p => ⟨mem_reconcile_closed, mem_reconcile_opened⟩⟩
    rw [← List.append_assoc]
    rfl
  · intro ok order s hs b hm
    obtain ⟨hreached, hall⟩ := s.periodEnd_reached ok order
    have hbegun := s.periodBegun_eq ok
    have hexec := hs.exec_periodStart ok order
    have hstates (p : Port) : ((s.periodBegun ok).link p).state = (b.link p).state := by
      rw [periodBegun_link]
      rfl
    generalize s.periodEnd ok order = t at hreached hall hexec
    generalize s.periodBegun ok = u at hreached hbegun hstates
    have hentry (p : Port) : u.entry p = b.entry p := by rw [hbegun]; rfl
    refine ⟨_, hexec, fun p d hup hq hd ho => ?_⟩
    exact hreached.enqueued (by rw [hbegun]; rfl) hall (by rw [hbegun]; exact hm) (by rw [hbegun]; rfl) hup
      (by rw [hbegun]; exact hq) hd (by rw [hentry, hbegun]; exact ho)
  · intro s unqueued complete next
    refine ⟨fun h => ?_, fun hm hs hc => ?_, fun hm hs hc => ?_⟩
    · exact if_neg fun hboth => h.elim (fun h => h hboth.1) (fun h => h hboth.2)
    · rw [settleStep, if_pos ⟨hm, hs⟩, if_pos (isolateComplete_iff.mpr hc)]
      rfl
    · rw [settleStep, if_pos ⟨hm, hs⟩, if_neg (mt isolateComplete_iff.mp hc)]
      rfl

end Machine
end Sys2Proof

/-! ### The computation of a period start (R76 to R86, R91) -/

namespace Sys2Proof

namespace Machine

namespace State

variable {s t u : State} {x : PsStep} {i : Fin 64} {may : List PsStep → PsStep → Prop}

/-! After the computation -/

/-- What the rules let be taken after the computation leaves what it has used and made. -/
structure Computed (s t : State) : Prop where
  mode : t.mode = s.mode
  rsq : t.rsq = s.rsq
  places : SamePlaces s t
  settings : t.settings = s.settings
  rtu : t.rtu = s.rtu
  xform : hasFlag t.cli.flags .xformClamp = hasFlag s.cli.flags .xformClamp
  cell : hasFlag t.cli.flags .cellClamp = hasFlag s.cli.flags .cellClamp

theorem Computed.refl (s : State) : Computed s s := ⟨rfl, rfl, fun _ => SamePlace.refl _, rfl, rfl, rfl, rfl⟩

theorem Computed.trans (h : Computed s t) (h' : Computed t u) : Computed s u :=
  ⟨h'.mode.trans h.mode, h'.rsq.trans h.rsq, h.places.trans h'.places, h'.settings.trans h.settings, h'.rtu.trans h.rtu,
    h'.xform.trans h.xform, h'.cell.trans h.cell⟩

theorem runStep_clamps (hx : x ≠ .compute) : hasFlag (s.runStep x).cli.flags .xformClamp = hasFlag s.cli.flags .xformClamp ∧
    hasFlag (s.runStep x).cli.flags .cellClamp = hasFlag s.cli.flags .cellClamp := by
  have hpart {u : State} (h : (s.runStep x).course = u.course)
      (hu : u.course.2.1 = s.course.2.1) : (s.runStep x).course.2.1 = s.course.2.1 := by rw [h, hu]
  suffices hclamps : (s.runStep x).course.2.1 = s.course.2.1 from Prod.mk.inj hclamps
  by_cases hown : x ∈ ownSteps
  · simp only [ownSteps, List.mem_cons, List.not_mem_nil, or_false] at hown
    rcases hown with rfl | rfl | rfl | rfl | rfl | rfl
    · exact hpart supplyStep_course rfl
    · exact hpart holdStep_course rfl
    · exact hpart referenceStep_course rfl
    · obtain ⟨judged, h⟩ := s.linksStep_course
      exact hpart h rfl
    · exact hpart leakStep_course rfl
    · exact absurd rfl hx
  · exact hpart (runStep_course hown) rfl

theorem runStep_computed (hx : x ∈ [PsStep.select, .deem, .reconcile, .settle, .leak, .commit, .issue, .plan, .compose]) :
    Computed s (s.runStep x) := by
  have hne : x ≠ .compute ∧ x ≠ .reference := by
    constructor <;> rintro rfl <;> simp at hx
  obtain ⟨hxform, hcell⟩ := runStep_clamps (s := s) hne.1
  have hrtu := runStep_rtu (s := s) hne.2 hne.1
  have hmake (hm : (s.runStep x).mode = s.mode) (hr : (s.runStep x).rsq = s.rsq) (hp : SamePlaces s (s.runStep x)) :
      Computed s (s.runStep x) := ⟨hm, hr, hp, by simp, hrtu, hxform, hcell⟩
  simp only [List.mem_cons, List.not_mem_nil, or_false] at hx
  rcases hx with rfl | rfl | rfl | rfl | rfl | rfl | rfl | rfl | rfl
  · exact hmake (by simp [runStep]) (by simp [runStep]) s.selectStep_samePlaces
  · exact hmake (by simp [runStep]) (by simp [runStep]) (samePlaces_foldl deemClosed_samePlaces _ _)
  · exact hmake (by simp [runStep]) (by simp [runStep]) (samePlaces_of_roster (by simp [runStep]))
  · exact hmake (by simp [runStep]) (by simp [runStep]) (samePlaces_of_roster (by simp [runStep]))
  · exact hmake (by simp [runStep]) (by simp [runStep]) s.leakStep_samePlaces
  · exact hmake (by simp [runStep]) (by simp [runStep]) (samePlaces_of_roster (by simp [runStep]))
  · exact hmake (by simp [runStep]) (by simp [runStep]) s.issueStep_samePlaces
  · exact hmake (by simp [runStep]) (by simp [runStep]) (samePlaces_of_roster (by simp [runStep]))
  · exact hmake (by simp [runStep]) (by simp [runStep]) (samePlaces_of_roster (by simp [runStep]))

theorem not_mem_needs_compute (hx : x ∉ PsStep.needs .compute) (hc : x ≠ .compute) :
    x ∈ [PsStep.select, .deem, .reconcile, .settle, .leak, .commit, .issue, .plan, .compose] := by
  cases x <;> simp [PsStep.needs] at hx hc ⊢

theorem Reached.computed (hr : Reached may s t) (hn : .compute ∈ s.ps.taken) (hneeds : PsStep.needs .compute ⊆ s.ps.taken) :
    Computed s t := by
  refine hr.keeps (P := Computed s) (Computed.refl s) fun u x hu hx _ _ hkept => hkept.trans ?_
  have hstep := runStep_computed (s := u.taking x) (not_mem_needs_compute (x := x)
    (fun hm => hx (hu.kept (hneeds hm))) (fun h => hx (hu.kept (h ▸ hn))))
  exact ⟨hstep.mode, hstep.rsq, hstep.places, hstep.settings, hstep.rtu, hstep.xform, hstep.cell⟩

/-! The bank -/

/-- The active rebalance bank is that of the sequencer's response and of the application of PERIOD marks alone. -/
theorem runStep_rebalActive (hs : x ≠ .sequencer) (hc : x ≠ .commit) : (s.runStep x).rebalActive = s.rebalActive := by
  cases x
  case sequencer => exact absurd rfl hs
  case commit => exact absurd rfl hc
  all_goals simp [runStep]

/-- The response leaves the bank where it does not complete a REMAP. -/
theorem sequencerStep_rebalActive (h : s.rsq.stage ≠ .remap) : s.sequencerStep.rebalActive = s.rebalActive := by
  have hgap : s.gapStep.rsq.stage = s.rsq.stage := by
    rw [gapStep]
    split <;> rfl
  have hprogress : s.gapStep.stageProgress.rebalActive = s.gapStep.rebalActive := by
    rw [← hgap] at h
    generalize s.gapStep = u at h
    simp only [stageProgress]
    split
    case h_4 => contradiction
    case h_3 | h_5 | h_6 => split <;> simp
    all_goals simp
  rw [sequencerStep]
  repeat' split
  · simp
  · rw [hprogress]
    simp
  · rfl

theorem switching_iff : s.switching = true ↔ s.mode = .run ∧ (s.rsq.stage = .normal ∨ s.rsq.stage = .resume) := by
  simp [switching]

/-- A period start that goes on to a NORMAL or RESUME period has not completed a REMAP, and its bank is the one found
until PERIOD marks are applied. -/
theorem Reached.rebalActive (hr : Reached may s t) (hn : s.ps.taken = []) (hq : .sequencer ∈ t.ps.taken)
    (hc : .commit ∉ t.ps.taken) (hs : t.switching = true) : t.rebalActive = s.rebalActive := by
  obtain ⟨hrun, hstage⟩ := switching_iff.mp hs
  obtain ⟨u, hu, hxu, -, -, hafter⟩ := hr.split (x := .sequencer) (by simp [hn]) hq
  have htaken : .sequencer ∈ ((u.taking .sequencer).runStep .sequencer).ps.taken := by
    rw [taking_runStep_taken]
    exact List.mem_cons_self ..
  have hkept {v w : State} (hvw : Reached may v w) (hw : w.ps.taken ⊆ t.ps.taken)
      (hnot : .sequencer ∈ v.ps.taken ∨ .sequencer ∉ w.ps.taken) : w.rebalActive = v.rebalActive := by
    refine hvw.keeps (P := fun z => z.rebalActive = v.rebalActive) rfl fun z y hz hy _ hyw hkept => ?_
    refine (runStep_rebalActive (s := z.taking y) ?_ ?_).trans hkept
    · rintro rfl
      exact hnot.elim (fun h => hy (hz.kept h)) (fun h => h hyw)
    · rintro rfl
      exact hc (hw hyw)
  have hresponse : ((u.taking .sequencer).runStep .sequencer).rebalActive = u.rebalActive := by
    refine sequencerStep_rebalActive (s := u.taking .sequencer) fun hremap => ?_
    rcases hafter.sentBack (.inl htaken) with h | ⟨hvrun, hv⟩
    · exact h hrun
    · have hurun : (u.taking .sequencer).mode = .run := by
        by_contra hne
        exact runStep_mode_ne_run hne .sequencer hvrun
      have hnext := (sequencerStep_nexts hurun).resolve_left (fun h => h hvrun)
      rw [hremap] at hnext
      rcases hv with hv | hv
      · rw [show (u.taking .sequencer).sequencerStep.rsq.stage = t.rsq.stage from hv.symm] at hnext
        rcases hstage with h | h <;> rw [h] at hnext <;> simp [Stage.nexts] at hnext
      · rcases hstage with h | h <;> rw [hv] at h <;> cases h
  have hsub : u.ps.taken ⊆ t.ps.taken := fun y hy => hafter.kept (by rw [taking_runStep_taken]; exact List.mem_cons_of_mem _ hy)
  rw [hkept hafter (List.Subset.refl _) (.inl htaken), hresponse, hkept hu hsub (.inr hxu)]

/-! The order of the computation and the application of PERIOD marks -/

/-- Where the computation comes first, PERIOD marks are applied after it; where no order names it or the composition of the
frames, which needs it, they are applied before it. -/
def mayCompute (order : List PsStep) (T : List PsStep) (x : PsStep) : Prop :=
  (order.head? = some .compute → x = .commit → .compute ∈ T) ∧
    (.compute ∉ order → .compose ∉ order → x = .compute → .commit ∈ T)

theorem before_commit_compute (s : State) (x : PsStep) : .commit ∉ s.before x ∧ (.compute ∈ s.before x → x = .compose) := by
  by_cases hi : s.ps.stageEnded = .isolate <;> cases hm : s.tripsMeet <;> cases x <;>
    simp [before, modeSteps, coreSteps, beforeSequencer, bypassSteps, hi, hm]

/-- A step that is put before another, or is it, is no other application of marks, and no computation but for the
computation and the composition. -/
theorem eq_of_mem_before {y : PsStep} (h : y ∈ s.before x ++ [.links, x]) :
    (y = .commit → x = .commit) ∧ (y = .compute → x = .compute ∨ x = .compose) := by
  obtain ⟨hcommit, hcompute⟩ := s.before_commit_compute x
  simp only [List.mem_append, List.mem_cons, List.not_mem_nil, or_false] at h
  constructor
  · rintro rfl
    rcases h with h | h | h
    · exact absurd h hcommit
    · cases h
    · exact h.symm
  · rintro rfl
    rcases h with h | h | h
    · exact .inr (hcompute h)
    · cases h
    · exact .inl h.symm

theorem takeSteps_mayCompute (s : State) (order : List PsStep) :
    Reached (mayCompute order) s (defaultOrder.foldl State.takeStep (order.foldl State.takeStep s)) := by
  have hnamed : Reached (mayCompute order) s (order.foldl State.takeStep s) ∧
      (order.head? = some .compute → .compute ∈ (order.foldl State.takeStep s).ps.taken) := by
    cases horder : order with
    | nil => exact ⟨.start, by simp⟩
    | cons a l =>
      have hlate {x y : PsStep} {u : State} (hx : x ∈ a :: l) (hy : y ∈ u.before x ++ [.links, x]) (T : List PsStep) :
          .compute ∉ a :: l → .compose ∉ a :: l → y = .compute → .commit ∈ T := fun hc hm hyc =>
        ((eq_of_mem_before hy).2 hyc).elim (fun h => absurd (h ▸ hx) hc) (fun h => absurd (h ▸ hx) hm)
      have hfront {x y : PsStep} {u : State} (hx : x ∈ [a]) (hy : y ∈ u.before x ++ [.links, x]) (T : List PsStep)
          (hhead : (a :: l).head? = some .compute) (hyc : y = .commit) : .compute ∈ T := by
        have hcommit := (eq_of_mem_before hy).1 hyc
        rw [List.mem_singleton] at hx
        simp only [List.head?_cons, Option.some.injEq] at hhead
        rw [← hx, hcommit] at hhead
        cases hhead
      obtain ⟨hfirst, hone, -⟩ := (Reached.start (may := mayCompute (a :: l)) (s := s)).foldl_takeStep [a]
        fun u _ x hx y hy T _ => ⟨hfront hx hy T, hlate (by simp_all) hy T⟩
      obtain ⟨hrest, -, hkept⟩ := hfirst.foldl_takeStep l fun u hu x hx y hy T hT =>
        ⟨fun hhead _ => hT _ (hu _ (by
          simp only [List.head?_cons, Option.some.injEq] at hhead
          exact hhead ▸ hone a (List.mem_singleton.mpr rfl))), hlate (List.mem_cons_of_mem _ hx) hy T⟩
      refine ⟨hrest, fun hhead => hkept _ ?_⟩
      simp only [List.head?_cons, Option.some.injEq] at hhead
      exact hhead ▸ hone a (List.mem_singleton.mpr rfl)
  obtain ⟨hnamed, hcomputed⟩ := hnamed
  have hsplit : defaultOrder = defaultOrder.take 13 ++ defaultOrder.drop 13 := rfl
  obtain ⟨hpre, hall, hkept⟩ := hnamed.foldl_takeStep (defaultOrder.take 13) fun u hu x hx y hy T hT =>
    ⟨fun hhead _ => hT _ (hu _ (hcomputed hhead)), fun _ _ hyc => by
      rcases (eq_of_mem_before hy).2 hyc with rfl | rfl <;> simp [defaultOrder] at hx⟩
  obtain ⟨hpost, -⟩ := hpre.foldl_takeStep (defaultOrder.drop 13) fun u hu x hx y hy T hT =>
    ⟨fun hhead _ => hT _ (hu _ (hkept _ (hcomputed hhead))), fun _ _ _ => hT _ (hu _ (hall _ (by simp [defaultOrder])))⟩
  rw [hsplit, List.foldl_append]
  exact hpost

/-! What the computation makes -/

theorem clampTo_eq {l : Int} (h : 0 ≤ l) (v : Int) : clampTo l v = max (-l) (min l v) := by
  simp only [clampTo]
  split
  · omega
  · split <;> omega

theorem computeStep_of_not (h : s.switching = false) : s.computeStep = s := by
  rw [computeStep, if_neg (by simp [h])]

theorem computeStep_made (hs : s.switching = true) (hi : rebalIndex s.deficits = some i) :
    s.computeStep.rtu = (s.storeOutputs i (s.phaseOut s.rebalActive[i.val])).rtu ∧
      hasFlag s.computeStep.cli.flags .xformClamp =
        (hasFlag s.cli.flags .xformClamp || Phase.list.any (fun x => (s.phaseOut s.rebalActive[i.val] x).xformClamped)) ∧
      hasFlag s.computeStep.cli.flags .cellClamp =
        (hasFlag s.cli.flags .cellClamp || Phase.list.any (fun x => (s.phaseOut s.rebalActive[i.val] x).cellClamped)) := by
  have hmade : s.computeStep = ((s.storeOutputs i (s.phaseOut s.rebalActive[i.val])).raiseIf
      (Phase.list.any (fun x => (s.phaseOut s.rebalActive[i.val] x).xformClamped)) .xformClamp).raiseIf
      (Phase.list.any (fun x => (s.phaseOut s.rebalActive[i.val] x).cellClamped)) .cellClamp := by
    rw [computeStep, if_pos hs, hi]
  generalize Phase.list.any (fun x => (s.phaseOut s.rebalActive[i.val] x).xformClamped) = a at hmade
  generalize Phase.list.any (fun x => (s.phaseOut s.rebalActive[i.val] x).cellClamped) = c at hmade
  rw [hmade]
  refine ⟨by simp, ?_, ?_⟩
  · cases a <;> cases c <;> simp [raiseIf, hasFlag_withFlag]
  · cases a <;> cases c <;> simp [raiseIf, hasFlag_withFlag]

/-- The computation of a period start: the state in which it is made, and what has become of the bank and is to become
of it. -/
theorem Reached.computation {order : List PsStep} (hr : Reached (mayCompute order) s t) (hn : s.ps.taken = [])
    (hall : ∀ x, x ∈ t.ps.taken) : ∃ u, CourseAt s u ∧ ReferenceAt s u ∧ .compute ∉ u.ps.taken ∧ .reference ∈ u.ps.taken ∧
      Computed (u.taking .compute).computeStep t ∧
      (u.switching = true → u.rebalActive = s.rebalActive ∨ u.rebalActive = t.rebalActive) ∧
      (u.switching = true → order.head? = some .compute → u.rebalActive = s.rebalActive) ∧
      (.compute ∉ order → .compose ∉ order → u.rebalActive = t.rebalActive) := by
  obtain ⟨u, hu, hxu, hneeds, hmay, hafter⟩ := hr.split (x := .compute) (by simp [hn]) (hall _)
  have htaken : ((u.taking .compute).runStep .compute).ps.taken = .compute :: u.ps.taken := taking_runStep_taken u _
  have hsequencer : .sequencer ∈ u.ps.taken := hneeds (by simp [PsStep.needs])
  have hfound (hs : u.switching = true) (hc : .commit ∉ u.ps.taken) : u.rebalActive = s.rebalActive :=
    hu.rebalActive hn hsequencer hc hs
  have hleft (hc : .commit ∈ u.ps.taken) : u.rebalActive = t.rebalActive := by
    have hbank : t.rebalActive = ((u.taking .compute).runStep .compute).rebalActive := by
      refine hafter.keeps (P := fun w => w.rebalActive = ((u.taking .compute).runStep .compute).rebalActive) rfl
        fun w x hw hx _ _ hkept => (runStep_rebalActive ?_ ?_).trans hkept
      · rintro rfl
        exact hx (hw.kept (htaken ▸ List.mem_cons_of_mem _ hsequencer))
      · rintro rfl
        exact hx (hw.kept (htaken ▸ List.mem_cons_of_mem _ hc))
    have hcompute : ((u.taking .compute).runStep .compute).rebalActive = u.rebalActive :=
      runStep_rebalActive (s := u.taking .compute) (by decide) (by decide)
    rw [hbank, hcompute]
  refine ⟨u, hu.courseAt hn, hu.referenceAt hn, hxu, hneeds (by simp [PsStep.needs]), hafter.computed
    (htaken ▸ List.mem_cons_self ..) (fun y hy => htaken ▸ List.mem_cons_of_mem _ (hneeds hy)), fun hs => ?_, fun hs hhead => ?_,
    fun hc hm => hleft (hmay.2 hc hm rfl)⟩
  · by_cases hc : .commit ∈ u.ps.taken
    · exact .inr (hleft hc)
    · exact .inl (hfound hs hc)
  · refine hfound hs fun hc => ?_
    obtain ⟨w, hw, -, -, hmayw, hwafter⟩ := hu.split (x := .commit) (by simp [hn]) hc
    exact hxu (hwafter.kept (by
      rw [taking_runStep_taken]
      exact List.mem_cons_of_mem _ (hmayw.1 hhead rfl)))

/-- In a period that is no NORMAL or RESUME period of RUN the transform stays as it was, but for the reference taken. -/
theorem Reached.not_computed {order : List PsStep} (hr : Reached (mayCompute order) s t) (hn : s.ps.taken = [])
    (hall : ∀ x, x ∈ t.ps.taken) (hs : t.switching = false) :
    t.rtu = { s.rtu with held := s.cli.current.getD s.rtu.held, fresh := s.cli.current.isSome } ∧
      hasFlag t.cli.flags .xformClamp = hasFlag s.cli.flags .xformClamp ∧
      hasFlag t.cli.flags .cellClamp = hasFlag s.cli.flags .cellClamp := by
  obtain ⟨u, hcourse, hreference, hxu, href, hmade, -⟩ := hr.computation hn hall
  obtain ⟨hheld, hfresh, hreadout⟩ := hreference
  have hnot : (u.taking .compute).switching = false := by
    have hmode : t.mode = u.mode := hmade.mode.trans (by simp [State.taking])
    have hrsq : t.rsq = u.rsq := hmade.rsq.trans (by simp [State.taking])
    rw [← hs, switching, switching, hmode, hrsq]
    rfl
  have hsame := computeStep_of_not hnot
  rw [hsame] at hmade
  obtain ⟨hxform, hcell⟩ := hcourse.clamps hxu
  rw [if_pos href] at hheld hfresh
  refine ⟨?_, hmade.xform.trans hxform, hmade.cell.trans hcell⟩
  have hrtu : t.rtu = u.rtu := hmade.rtu
  rw [hrtu, hreadout hxu, hheld, hfresh]

/-- Where a period start goes on to no NORMAL or RESUME period: from outside RUN, and from INHIBIT, ISOLATE, REMAP and
ALIGN (R23 to R27). -/
theorem Reached.not_switching (hr : Reached may s t) (hn : s.ps.taken = []) (hall : ∀ x, x ∈ t.ps.taken)
    (h : s.mode ≠ .run ∨ s.rsq.stage = .inhibit ∨ s.rsq.stage = .isolate ∨ s.rsq.stage = .remap ∨ s.rsq.stage = .align) :
    t.switching = false := by
  by_contra hs
  obtain ⟨hrun, hstage⟩ := switching_iff.mp (by simpa using hs)
  rcases hr.stage (by simp [hn]) (hall .sequencer) with hm | ⟨hm, hnext⟩
  · exact hm hrun
  · rcases h with h | h | h | h | h
    · exact h hm
    all_goals
      rw [h] at hnext
      rcases hstage with h | h <;> rw [h] at hnext <;> simp [Stage.nexts] at hnext

/-- The values of a computation: what one entry makes of the reference taken, on the strings and at the gain of the
period that begins. -/
structure Values (s t : State) (i : Fin 64) (e : RebalEntry) (o : Phase → PhaseOut) : Prop where
  made : ∀ x, o x = computePhase e (s.cli.current.getD s.rtu.held) t.rsq.rampGain s.settings.nNom (t.stringLength x)
    s.ctu.pInForce x
  rtu : t.rtu = { t.rtu with
    entryIndex := some i, gain := t.rsq.rampGain, y := Tri.of (fun x => (o x).y), yRamped := Tri.of (fun x => (o x).yRamped)
    m := Tri.of (fun x => (o x).m), pairs := Tri.of (fun x => (o x).pair)
    xformClamps := Tri.of (fun x => countClamp (s.rtu.xformClamps.get x) (o x).xformClamped)
    cellClamps := Tri.of (fun x => countClamp (s.rtu.cellClamps.get x) (o x).cellClamped) }
  xform : hasFlag t.cli.flags .xformClamp = (hasFlag s.cli.flags .xformClamp || Phase.list.any (fun x => (o x).xformClamped))
  cell : hasFlag t.cli.flags .cellClamp = (hasFlag s.cli.flags .cellClamp || Phase.list.any (fun x => (o x).cellClamped))

/-- The values of a computation, phase by phase (R80 to R86). -/
structure PhaseValues (r r' : Transform) (e : RebalEntry) (v : Tri Half) (g nNom n p : Nat) (x : Phase) (o : PhaseOut) : Prop where
  y : r'.y.get x = clampTo (min e.ceiling 32767 : Nat) (transformOut (e.coef.get x) v)
  yRamped : r'.yRamped.get x = rampOut (r'.y.get x) g
  m : r'.m.get x = clampTo 32767 (cellIndex (r'.yRamped.get x) nNom n)
  pair : r'.pairs.get x = pairOf p (r'.m.get x)
  xformClamps : r'.xformClamps.get x = countClamp (r.xformClamps.get x) o.xformClamped
  cellClamps : r'.cellClamps.get x = countClamp (r.cellClamps.get x) o.cellClamped
  xformClamped : o.xformClamped = (transformOut (e.coef.get x) v != r'.y.get x)
  cellClamped : o.cellClamped = (cellIndex (r'.yRamped.get x) nNom n != r'.m.get x)

theorem Values.phases {e : RebalEntry} {o : Phase → PhaseOut} (h : Values s t i e o) (x : Phase) :
    PhaseValues s.rtu t.rtu e (s.cli.current.getD s.rtu.held) t.rsq.rampGain s.settings.nNom (t.stringLength x)
      s.ctu.pInForce x (o x) := by
  have hmade := h.made x
  have hrtu := h.rtu
  have hy : t.rtu.y.get x = (o x).y := by rw [hrtu]; exact Tri.get_of _ x
  have hyr : t.rtu.yRamped.get x = (o x).yRamped := by rw [hrtu]; exact Tri.get_of _ x
  have hm : t.rtu.m.get x = (o x).m := by rw [hrtu]; exact Tri.get_of _ x
  have hp : t.rtu.pairs.get x = (o x).pair := by rw [hrtu]; exact Tri.get_of _ x
  have hxc : t.rtu.xformClamps.get x = countClamp (s.rtu.xformClamps.get x) (o x).xformClamped := by rw [hrtu]; exact Tri.get_of _ x
  have hcc : t.rtu.cellClamps.get x = countClamp (s.rtu.cellClamps.get x) (o x).cellClamped := by rw [hrtu]; exact Tri.get_of _ x
  constructor
  · rw [hy, hmade, computePhase]
  · rw [hyr, hy, hmade, computePhase]
  · rw [hm, hyr, hmade, computePhase]
  · rw [hp, hm, hmade, computePhase]
  · exact hxc
  · exact hcc
  · rw [hy, hmade, computePhase]
  · rw [hyr, hm, hmade, computePhase]

/-- In a NORMAL or RESUME period of RUN the computation is made on the bank found or on the bank left. -/
theorem Reached.values {order : List PsStep} (hr : Reached (mayCompute order) s t) (hn : s.ps.taken = [])
    (hall : ∀ x, x ∈ t.ps.taken) (hs : t.switching = true) : ∃ bank, (bank = s.rebalActive ∨ bank = t.rebalActive) ∧
      (order.head? = some .compute → bank = s.rebalActive) ∧
      (.compute ∉ order → .compose ∉ order → bank = t.rebalActive) ∧
      ∀ i, rebalIndex t.deficits = some i → ∃ o, Values s t i bank[i.val] o := by
  obtain ⟨u, hcourse, hreference, hxu, href, hmade, heither, hfirst, hlast⟩ := hr.computation hn hall
  have hmode : t.mode = u.mode := hmade.mode.trans (by simp [State.taking])
  have hrsq : t.rsq = u.rsq := hmade.rsq.trans (by simp [State.taking])
  have hswitching : u.switching = true := by
    rw [← hs, switching, switching, hmode, hrsq]
  refine ⟨u.rebalActive, heither hswitching, hfirst hswitching, hlast, fun i hi => ?_⟩
  have hplaces : SamePlaces u t := (samePlaces_of_roster (by simp [State.taking])).trans hmade.places
  have hsettings : t.settings = u.settings := hmade.settings.trans (by simp [State.taking])
  have hindex : rebalIndex (u.taking .compute).deficits = some i := (deficits_congr hplaces hsettings) ▸ hi
  obtain ⟨hrtu, hxform, hcell⟩ := computeStep_made (s := u.taking .compute) hswitching hindex
  obtain ⟨hheld, -, hreadout⟩ := hreference
  rw [if_pos href] at hheld
  have hclamps := hreadout hxu
  have hpin : u.ctu.pInForce = s.ctu.pInForce := Carrier.pInForce_of_clock hcourse.clock
  obtain ⟨hxu', hcu'⟩ := hcourse.clamps hxu
  refine ⟨(u.taking .compute).phaseOut u.rebalActive[i.val], fun x => ?_, ?_, ?_, ?_⟩
  · have hlength : t.stringLength x = u.stringLength x := congrArg List.length (hplaces.phaseString x)
    rw [phaseOut, hrsq, ← hheld, hlength, ← hcourse.settings, ← hpin]
    rfl
  · rw [hmade.rtu, hrtu, hrsq]
    simp only [storeOutputs, updRtu]
    rw [show (u.taking .compute).rtu = u.rtu from rfl, hclamps]
    rfl
  · rw [hmade.xform, hxform]
    exact congrArg (· || _) hxu'
  · rw [hmade.cell, hcell]
    exact congrArg (· || _) hcu'

theorem Phase.any_list {f : Phase → Bool} : Phase.list.any f = true ↔ ∃ x, f x = true := by
  simp only [List.any_eq_true]
  exact ⟨fun ⟨x, _, h⟩ => ⟨x, h⟩, fun ⟨x, h⟩ => ⟨x, by cases x <;> simp [Phase.list], h⟩⟩

end State

open State in
/-- Settles O22: the computation is made in the state that the rules put before it, and nothing after it changes what it
used or made. -/
theorem computationAtPeriodStart : Obligations.ComputationAtPeriodStart := by
  unfold Obligations.ComputationAtPeriodStart
  intro ok order s hs b
  have hreached : Reached (mayCompute order) (s.periodBegun ok) (s.periodEnd ok order) := by
    rw [periodEnd]
    exact takeSteps_mayCompute (s.periodBegun ok) order
  obtain ⟨-, hall⟩ := s.periodEnd_reached ok order
  have hexec := hs.exec_periodStart ok order
  have hbegun := s.periodBegun_eq ok
  have hb : s.sendDue = b := rfl
  have hsettings : b.settings = s.settings := by simp [b]
  rw [hb] at hbegun
  clear_value b
  generalize s.periodEnd ok order = t at hreached hall hexec
  generalize s.periodBegun ok = u at hbegun hreached
  have hn : u.ps.taken = [] := by rw [hbegun]; rfl
  have hrtu : u.rtu = b.rtu := by rw [hbegun]
  have hcurrent : u.cli.current = b.cli.current := by rw [hbegun]
  have hbank : u.rebalActive = b.rebalActive := by rw [hbegun]
  have hflags : u.cli.flags = 0 := by rw [hbegun]
  have hpin : u.ctu.pInForce = s.settings.p := by rw [hbegun, hsettings]
  have husettings : u.settings = s.settings := by rw [hbegun, hsettings]
  have hnone (f : Flag) : hasFlag u.cli.flags f = false := by simp [hasFlag, hflags]
  refine ⟨_, hexec, fun h => ?_, fun hm hstage => ?_⟩
  · have hnot : t.switching = false := by
      rcases h with h | h | h | h | h | h | h
      · exact hreached.not_switching hn hall (.inl (by rw [hbegun]; exact h))
      · exact hreached.not_switching hn hall (.inr (.inl (by rw [hbegun]; exact h)))
      · exact hreached.not_switching hn hall (.inr (.inr (.inl (by rw [hbegun]; exact h))))
      · exact hreached.not_switching hn hall (.inr (.inr (.inr (.inl (by rw [hbegun]; exact h)))))
      · exact hreached.not_switching hn hall (.inr (.inr (.inr (.inr (by rw [hbegun]; exact h)))))
      · exact Bool.eq_false_iff.mpr fun hs => h (switching_iff.mp hs).1
      · exact Bool.eq_false_iff.mpr fun hs => (switching_iff.mp hs).2.elim h.1 h.2
    obtain ⟨hmade, hx, hc⟩ := hreached.not_computed hn hall hnot
    rw [hnone] at hx hc
    exact ⟨by rw [hmade, hrtu, hcurrent], hx, hc⟩
  · obtain ⟨bank, heither, hfirst, hlast, hvalues⟩ := hreached.values hn hall (switching_iff.mpr ⟨hm, hstage⟩)
    refine ⟨bank, hbank ▸ heither, hbank ▸ hfirst, hlast, ?_⟩
    intro i hi e v raw top index
    obtain ⟨o, hout⟩ := hvalues i hi
    have hphases := hout.phases
    rw [hrtu, hcurrent, hpin, husettings] at hphases
    have hxform := hout.xform
    have hcell := hout.cell
    rw [hnone, Bool.false_or] at hxform hcell
    have hy (x : Phase) : t.rtu.y.get x = clampTo top (raw x) := (hphases x).y
    have hyr (x : Phase) : t.rtu.yRamped.get x = rampOut (t.rtu.y.get x) t.rsq.rampGain := (hphases x).yRamped
    have hm (x : Phase) (hx : t.stringLength x ≠ 0) : t.rtu.m.get x = clampTo 32767 (index x) := by
      rw [(hphases x).m, cellIndex, if_neg hx]
      rfl
    have hpair (x : Phase) : t.rtu.pairs.get x = pairOf s.settings.p (t.rtu.m.get x) := (hphases x).pair
    have hxclamp (x : Phase) : (o x).xformClamped = true ↔ t.rtu.y.get x ≠ raw x := by
      rw [(hphases x).xformClamped, bne_iff_ne]
      exact ne_comm
    have hcclamp (x : Phase) (hx : t.stringLength x ≠ 0) : (o x).cellClamped = true ↔ t.rtu.m.get x ≠ index x := by
      rw [(hphases x).cellClamped, bne_iff_ne, cellIndex, if_neg hx]
      exact ne_comm
    have hcount (n : Nat) (acted : Bool) (v w : Int) (h : acted = true ↔ v ≠ w) :
        countClamp n acted = if v = w then n else saturate 65535 n := by
      rw [countClamp]
      by_cases hv : v = w
      · rw [if_neg (by rw [h]; exact fun hne => hne hv), if_pos hv]
      · rw [if_pos (h.mpr hv), if_neg hv]
    refine ⟨congrArg Transform.entryIndex hout.rtu, congrArg Transform.gain hout.rtu, fun x => ?_, hyr, fun x hx => ?_,
      fun x => ⟨?_, ?_⟩, fun x => ?_, fun x hx => ?_, ?_, fun hx => ?_⟩
    · exact (hy x).trans (clampTo_eq (Int.natCast_nonneg _) _)
    · exact (hm x hx).trans (clampTo_eq (by decide) _)
    · rw [hpair, pairOf, Int.toNat_eq_max, max_comm]
    · rw [hpair]
      rfl
    · exact (hphases x).xformClamps.trans (hcount _ _ _ _ (hxclamp x))
    · exact (hphases x).cellClamps.trans (hcount _ _ _ _ (hcclamp x hx))
    · rw [hxform, Phase.any_list]
      exact exists_congr hxclamp
    · rw [hcell, Phase.any_list]
      exact exists_congr fun x => hcclamp x (hx x)

end Machine
end Sys2Proof

/-! ### The links over a period start, and the period frames (R125, R126, R131 to R134) -/

namespace Sys2Proof

namespace Machine

namespace State

variable {s t u : State} {x : PsStep} {p q : Port} {l : Link} {may : List PsStep → PsStep → Prop}

/-! One port in the links step -/

/-- A port judged sends urgent BLOCKs to another and does nothing else to it. -/
theorem judgePort_urgedAt (h : q ≠ p) : UrgedAt p s (s.judgePort q) := by
  by_cases hr : s.ReachesLimit q
  · rw [hr.judgePort]
    exact (urgedAt_cellKept p s).loseCell
      (urgedAt_of_link (t := s.withLostPort q) (withLostPort_link_of_ne s (Ne.symm h)) rfl) q
  · rw [judgePort_of_not hr]
    exact urgedAt_of_link (countPort_link_of_ne h) (by simp)

theorem foldl_judgePort_urgedAt {ps : List Port} (h : p ∉ ps) (s : State) : UrgedAt p s (ps.foldl judgePort s) := by
  induction ps generalizing s with
  | nil => exact UrgedAt.refl p s
  | cons q ps ih =>
    have hq : q ≠ p := fun heq => h (heq ▸ List.mem_cons_self ..)
    exact (judgePort_urgedAt hq).trans (ih (fun hm => h (List.mem_cons_of_mem _ hm)) _)

/-- What a port that has been lost keeps of its record (R125 to R127). -/
def lostLink (p : Port) (l : Link) : Link := { l with
  state := .lost, tagSent := none
  linkingCount := if l.state = .linking then l.linkingCount + 1 else l.linkingCount
  missCount := if l.state = .linking then l.missCount else l.missCount + 1
  transmit := (l.transmit.drop (Config.framesSent p l.moments)).take 1
  moments := l.moments + 1 }

/-- What a port that is not lost keeps of its record (R125, R126). -/
def countedLink (answered : Bool) (l : Link) : Link :=
  if l.state = .linking ∧ l.tagSent.isSome = true then { l with linkingCount := l.linkingCount + 1 }
  else if (l.state = .up ∨ l.state = .missing) ∧ answered = false then { l with missCount := l.missCount + 1, state := .missing }
  else l

/-- A port's record once it is judged. -/
theorem judgePort_link_self (s : State) (p : Port) : (s.judgePort p).ctu.clock = s.ctu.clock ∧
    (s.ReachesLimit p → (s.judgePort p).link p = lostLink p (s.link p)) ∧
    (¬s.ReachesLimit p → (s.judgePort p).link p = countedLink s.ps.answered[p.val] (s.link p)) := by
  refine ⟨by simp, fun h => ?_, fun h => ?_⟩
  · rw [h.judgePort]
    have hself : (s.withLostPort p).link p = lostLink p (s.link p) := by simp [withLostPort, link, lostLink]
    obtain ⟨urgent, hlink, hnone, -⟩ := ((urgedAt_cellKept p _).loseCell (UrgedAt.refl p (s.withLostPort p)) p).link
    rw [hlink, hnone (by rw [hself]; rfl), List.append_nil, hself]
  · rw [judgePort_of_not h]
    have hps : ((s.countPort p).updPs (fun q => { q with judged := p :: q.judged })).link p = (s.countPort p).link p := rfl
    have hcounts : s.linkingCounts p = true ↔ (s.link p).state = .linking ∧ (s.link p).tagSent.isSome = true := by
      simp [linkingCounts]
    have hmisses : s.misses p = true ↔ ((s.link p).state = .up ∨ (s.link p).state = .missing) ∧ s.ps.answered[p.val] = false := by
      simp [misses]
    rw [hps, countPort, countedLink]
    by_cases hc : s.linkingCounts p = true
    · rw [if_pos hc, if_pos (hcounts.mp hc), updLink_link, if_pos rfl]
    · rw [if_neg hc, if_neg (mt hcounts.mpr hc)]
      by_cases hm : s.misses p = true
      · rw [if_pos hm, if_pos (hmisses.mp hm), updLink_link, if_pos rfl]
      · rw [if_neg hm, if_neg (mt hmisses.mpr hm)]

theorem judgePort_answered (s : State) (p : Port) : (s.judgePort p).ps.answered = s.ps.answered := by
  have h := congrArg (fun c => c.1.2.2.2.1) (s.judgePort_course p)
  exact h

theorem foldl_judgePort_answered (ps : List Port) (s : State) : (ps.foldl judgePort s).ps.answered = s.ps.answered :=
  foldl_keeps (P := fun t => t.ps.answered = s.ps.answered) (fun t q h => (t.judgePort_answered q).trans h) ps rfl

theorem ReachesLimit.congr (h : s.ReachesLimit p) (hl : t.link p = { s.link p with transmit := (t.link p).transmit })
    (ha : t.ps.answered = s.ps.answered) (hs : t.settings = s.settings) : t.ReachesLimit p := by
  rw [ReachesLimit, hl, ha, hs]
  exact h

/-- The links step, port by port: judged once, with urgent BLOCKs before and after. -/
theorem linksStep_port (hj : s.ps.judged = []) (p : Port) : ∃ v, UrgedAt p s v ∧ UrgedAt p (v.judgePort p) s.linksStep ∧
    v.ps.answered = s.ps.answered ∧ v.settings = s.settings := by
  have hall : s.linksStep = allPorts.foldl judgePort s := by
    rw [linksStep, hj]
    congr 1
  obtain ⟨pre, post, hsplit⟩ := List.append_of_mem (mem_allPorts p)
  have hnodup := hsplit ▸ allPorts_nodup
  obtain ⟨-, hpost, hdisjoint⟩ := List.nodup_append.mp hnodup
  have hpre : p ∉ pre := fun h => hdisjoint p h p (List.mem_cons_self ..) rfl
  refine ⟨pre.foldl judgePort s, foldl_judgePort_urgedAt hpre s, ?_, foldl_judgePort_answered pre s, by simp⟩
  rw [hall, hsplit, List.foldl_append, List.foldl_cons]
  exact foldl_judgePort_urgedAt (List.nodup_cons.mp hpost).1 _

/-! From the beginning of a period start to the composition of the frames -/

theorem Reached.urgedAt (hr : Reached may s t) (hl : .links ∈ s.ps.taken ∨ .links ∉ t.ps.taken) (hc : .compose ∉ t.ps.taken) :
    UrgedAt p s t := by
  refine hr.keeps (P := UrgedAt p s) (UrgedAt.refl p s) fun u x hu hx _ ht hkept => hkept.trans ?_
  have hstep : UrgedAt p (u.taking x) ((u.taking x).runStep x) := runStep_urgedAt (s := u.taking x) (by
    rintro rfl
    exact hl.elim (fun h => hx (hu.kept h)) (fun h => h ht)) (by
    rintro rfl
    exact hc ht)
  exact ⟨hstep.clock, hstep.link⟩

theorem countedLink_transmit (answered : Bool) (l : Link) (m : List CellFrame) :
    countedLink answered { l with transmit := m } = { countedLink answered l with transmit := m } := by
  simp only [countedLink]
  repeat' split
  all_goals rfl

theorem countedLink_sends (answered : Bool) (l : Link) : (countedLink answered l).state.sends = l.state.sends := by
  simp only [countedLink]
  split
  · rfl
  · split
    · rename_i h
      rcases h.1 with h | h
      · rw [h]
        rfl
      · rw [h]
    · rfl

/-- What a port has come to between the links step and the composition: lost, or counted and sent urgent BLOCKs. -/
theorem Reached.linkBefore (hr : Reached may s t) (hn : s.ps.taken = []) (hj : s.ps.judged = []) (hl : .links ∈ t.ps.taken)
    (hc : .compose ∉ t.ps.taken) :
    (s.ReachesLimit p → ∃ m, t.link p = lostLink p { s.link p with transmit := m }) ∧
      (¬s.ReachesLimit p → ∃ urgent, t.link p = { countedLink s.ps.answered[p.val] (s.link p) with
        transmit := (s.link p).transmit ++ urgent } ∧ ((s.link p).state.sends = false → urgent = []) ∧
        ∀ f ∈ urgent, f = { s.urgentFrame p .block with order := f.order }) := by
  obtain ⟨u, hu, hxu, -, -, hafter⟩ := hr.split (x := .links) (by simp [hn]) hl
  have hsub : u.ps.taken ⊆ t.ps.taken := fun y hy => hafter.kept (by rw [taking_runStep_taken]; exact List.mem_cons_of_mem _ hy)
  have hcourse := hu.courseAt hn
  have hfirst : UrgedAt p s u := hu.urgedAt (.inr hxu) (fun h => hc (hsub h))
  have hlast : UrgedAt p ((u.taking .links).runStep .links) t :=
    hafter.urgedAt (.inl (by rw [taking_runStep_taken]; exact List.mem_cons_self ..)) hc
  obtain ⟨v, hv, hjudged, hanswered, hsettings⟩ :=
    linksStep_port (s := u.taking .links) ((hcourse.judged hxu).trans hj) p
  have hsv : UrgedAt p s v := hfirst.trans ⟨hv.clock, hv.link⟩
  have hvt : UrgedAt p (v.judgePort p) t := hjudged.trans hlast
  obtain ⟨a, ha, hna, hfa⟩ := hsv.link
  obtain ⟨c, hcl, hnc, hfc⟩ := hvt.link
  obtain ⟨hclock, hlost, hcounted⟩ := v.judgePort_link_self p
  have hlimit : v.ReachesLimit p ↔ s.ReachesLimit p := by
    have ha' : v.ps.answered = s.ps.answered := hanswered.trans hcourse.answered
    have hs' : v.settings = s.settings := hsettings.trans hcourse.settings
    have hlink : v.link p = { s.link p with transmit := (v.link p).transmit } := by rw [ha]
    refine ⟨fun h => h.congr ?_ ha'.symm hs'.symm, fun h => h.congr hlink ha' hs'⟩
    rw [hlink]
  refine ⟨fun h => ⟨(s.link p).transmit ++ a, ?_⟩, fun h => ⟨a ++ c, ?_, fun hs => ?_, fun f hf => ?_⟩⟩
  · have hself := hlost (hlimit.mpr h)
    rw [hcl, hnc (by rw [hself]; rfl), List.append_nil, hself, ha]
  · rw [hcl, hcounted (mt hlimit.mp h), ha, hanswered, countedLink_transmit]
    have htaking : (u.taking .links).ps.answered = s.ps.answered := hcourse.answered
    simp [htaking]
  · have hself := hcounted (mt hlimit.mp h)
    rw [hna hs, hnc (by rw [hself, countedLink_sends, ha]; exact hs), List.append_nil]
  · rcases List.mem_append.mp hf with hf | hf
    · exact hfa f hf
    · exact (hfc f hf).trans (urgentFrame_of_clock (hclock.trans hsv.clock) _)

/-! The composition, and what is left after it -/

/-- What the application of PERIOD marks and the leak leave of what the composition has used. -/
structure Composed (s t : State) : Prop where
  mode : t.mode = s.mode
  rsq : t.rsq = s.rsq
  rtu : t.rtu = s.rtu
  ctu : t.ctu = s.ctu
  links : t.links = s.links
  entry : ∀ p, (t.entry p).role = (s.entry p).role ∧ (t.entry p).bypassOrder = (s.entry p).bypassOrder

theorem Composed.trans (h : Composed s t) (h' : Composed t u) : Composed s u :=
  ⟨h'.mode.trans h.mode, h'.rsq.trans h.rsq, h'.rtu.trans h.rtu, h'.ctu.trans h.ctu, h'.links.trans h.links,
    fun p => ⟨(h'.entry p).1.trans (h.entry p).1, (h'.entry p).2.trans (h.entry p).2⟩⟩

theorem runStep_composed (hx : x = .leak ∨ x = .commit) : Composed s (s.runStep x) := by
  rcases hx with rfl | rfl
  · refine ⟨by simp [runStep], by simp [runStep], by simp [runStep], by simp [runStep], by simp [runStep], fun p => ?_⟩
    simp only [runStep, leakStep]
    split <;> simp [mapEntries, entry]
  · exact ⟨by simp [runStep], by simp [runStep], by simp [runStep], by simp [runStep], by simp [runStep],
      fun p => by simp [runStep, entry]⟩

theorem Reached.composed (hr : Reached may s t) (hn : .compose ∈ s.ps.taken) (hneeds : PsStep.needs .compose ⊆ s.ps.taken) :
    Composed s t := by
  refine hr.keeps (P := Composed s) ⟨rfl, rfl, rfl, rfl, rfl, fun _ => ⟨rfl, rfl⟩⟩ fun u x hu hx _ _ hkept => hkept.trans ?_
  have hlate : x = .leak ∨ x = .commit := by
    have hnot : x ∉ PsStep.needs .compose := fun hm => hx (hu.kept (hneeds hm))
    have hne : x ≠ .compose := fun h => hx (hu.kept (h ▸ hn))
    cases x <;> simp [PsStep.needs] at hnot hne ⊢
  have hstep := runStep_composed (s := u.taking x) hlate
  exact ⟨hstep.mode, hstep.rsq, hstep.rtu, hstep.ctu, hstep.links, hstep.entry⟩

/-- The composition of the frames in a whole period start. -/
theorem Reached.composing (hr : Reached may s t) (hn : s.ps.taken = []) (hall : ∀ x, x ∈ t.ps.taken) :
    ∃ u, Reached may s u ∧ .compose ∉ u.ps.taken ∧ .links ∈ u.ps.taken ∧ Composed u.composeStep t := by
  obtain ⟨u, hu, hxu, hneeds, -, hafter⟩ := hr.split (x := .compose) (by simp [hn]) (hall _)
  have htaken : ((u.taking .compose).runStep .compose).ps.taken = .compose :: u.ps.taken := taking_runStep_taken u _
  have hlate := hafter.composed (htaken ▸ List.mem_cons_self ..) fun y hy => htaken ▸ List.mem_cons_of_mem _ (hneeds hy)
  exact ⟨u, hu, hxu, hneeds (by simp [PsStep.needs]), ⟨hlate.mode, hlate.rsq, hlate.rtu, hlate.ctu, hlate.links, hlate.entry⟩⟩

/-! One port's record from before a period start to after it -/

/-- A port in LINKING counts a period start before which it was sent a period frame (R125). -/
abbrev Counts (l : Link) : Prop := l.state = .linking ∧ l.tagSent.isSome = true

/-- A port in UP or MISSING that has accepted no status misses (R126). -/
abbrev Misses (l : Link) : Prop := (l.state = .up ∨ l.state = .missing) ∧ l.accepted = false

/-- A port that reaches its limit is lost (R125, R126). -/
abbrev Loses (limit : Nat) (l : Link) : Prop :=
  (Counts l ∧ 64 ≤ l.linkingCount + 1) ∨ (Misses l ∧ limit ≤ l.missCount + 1)

/-- A port's record but for what its frames make of it. -/
def settledLink (limit : Nat) (l : Link) (tagSent : Option Byte) (transmit : List CellFrame) (once : Bool)
    (last : Option Command) : Link := { l with
  state := if Loses limit l then .lost else if Misses l then .missing else l.state
  linkingCount := if Counts l then l.linkingCount + 1 else l.linkingCount
  missCount := if Misses l then l.missCount + 1 else l.missCount
  accepted := false, tagSent := tagSent, transmit := transmit, forceOnce := once, lastCommand := last
  moments := if Loses limit l then l.moments + 2 else l.moments + 1 }

theorem lostLink_settled {limit : Nat} (h : Loses limit l) (m : List CellFrame) : ∃ transmit, transmit.length ≤ 1 ∧
    lostLink p { startLink p l with transmit := m } = settledLink limit l none transmit l.forceOnce l.lastCommand := by
  refine ⟨(m.drop (Config.framesSent p (l.moments + 1))).take 1, List.length_take_le .., ?_⟩
  have hstart : startLink p l = { l with
      transmit := l.transmit.drop (Config.framesSent p l.moments), moments := l.moments + 1, accepted := false } := rfl
  rw [hstart]
  simp only [lostLink, settledLink, if_pos h]
  rcases h with ⟨hc, -⟩ | ⟨hm, -⟩
  · have hm : ¬Misses l := fun h => by rcases h.1 with h | h <;> rw [hc.1] at h <;> cases h
    rw [if_pos hc, if_neg hm, if_pos hc.1, if_pos hc.1]
  · have hlinking : l.state ≠ .linking := fun h => by rcases hm.1 with h' | h' <;> rw [h'] at h <;> cases h
    rw [if_neg (fun hc : Counts l => hlinking hc.1), if_pos hm, if_neg hlinking, if_neg hlinking]

theorem countedLink_settled {limit : Nat} (h : ¬Loses limit l) (m : List CellFrame) :
    ({ countedLink l.accepted (startLink p l) with transmit := m } : Link) =
      settledLink limit l l.tagSent m l.forceOnce l.lastCommand := by
  have hstart : startLink p l = { l with
      transmit := l.transmit.drop (Config.framesSent p l.moments), moments := l.moments + 1, accepted := false } := rfl
  rw [hstart, settledLink, if_neg h, if_neg h]
  by_cases hc : Counts l
  · have hm : ¬Misses l := fun h => by rcases h.1 with h | h <;> rw [hc.1] at h <;> cases h
    rw [countedLink, if_pos hc, if_neg hm, if_neg hm, if_pos hc]
  · by_cases hm : Misses l
    · rw [countedLink, if_neg hc, if_pos hm, if_pos hm, if_neg hc, if_pos hm]
    · rw [countedLink, if_neg hc, if_neg hm, if_neg hm, if_neg hc, if_neg hm]

/-- The whole course of a port's record over a period start: lost and silent, or counted, with the urgent BLOCKs, and then
the composition of its frame. -/
theorem Reached.port (hr : Reached may s t) (hn : s.ps.taken = []) (hj : s.ps.judged = []) (hall : ∀ x, x ∈ t.ps.taken)
    {p : Port} {limit : Nat} (hs : s.settings.missLimit = limit) (hl : s.link p = startLink p l)
    (ha : s.ps.answered[p.val] = l.accepted) : ∃ u, Reached may s u ∧ Composed u.composeStep t ∧
      t.link p = u.composedPort p (u.link p) ∧
      (Loses limit l → ∃ transmit, transmit.length ≤ 1 ∧
        u.link p = settledLink limit l none transmit l.forceOnce l.lastCommand) ∧
      (¬Loses limit l → ∃ urgent, u.link p = settledLink limit l l.tagSent
          (l.transmit.drop (Config.framesSent p l.moments) ++ urgent) l.forceOnce l.lastCommand ∧
        (l.state.sends = false → urgent = []) ∧ ∀ f ∈ urgent, f = { s.urgentFrame p .block with order := f.order }) := by
  obtain ⟨u, hu, hxu, hlinks, hlate⟩ := hr.composing hn hall
  obtain ⟨hlost, hcounted⟩ := hu.linkBefore (p := p) hn hj hlinks hxu
  have hlimit : s.ReachesLimit p ↔ Loses limit l := by
    rw [ReachesLimit, hl, ha, hs, Loses, Counts, Misses, and_assoc, and_assoc]
    rfl
  refine ⟨u, hu, hlate, ?_, fun h => ?_, fun h => ?_⟩
  · rw [link, hlate.links, composeStep]
    exact mapLinks_link _ _ _
  · obtain ⟨m, hm⟩ := hlost (hlimit.mpr h)
    obtain ⟨transmit, hlen, hsettled⟩ := lostLink_settled (p := p) h m
    exact ⟨transmit, hlen, by rw [hm, hl, hsettled]⟩
  · obtain ⟨urgent, hm, hnone, hform⟩ := hcounted (mt hlimit.mp h)
    refine ⟨urgent, ?_, fun hs => hnone (by rw [hl]; exact hs), hform⟩
    rw [hm, ha, hl]
    exact countedLink_settled h _

/-! The period frame -/

theorem composedPort_silent (h : (s.link p).state.sends = false) : s.composedPort p (s.link p) = s.link p := by
  rw [composedPort, periodCommand]
  simp [h]

/-- R131: the command of a port that is sent a frame, row by row. -/
theorem periodCommand_of_sends (h : (s.link p).state.sends = true) : ∃ c, s.periodCommand p = some c ∧
    ((s.entry p).role ≠ .active ∨ s.switching = false ∨ (s.link p).state = .linking → c = .block) ∧
    ((s.entry p).role = .active → s.switching = true → (s.link p).state ≠ .linking →
      c = if (s.link p).forceOnce || (s.link p).forceContinuous then .zero else .switch) := by
  rw [periodCommand]
  simp only [h, Bool.not_true, Bool.false_eq_true, if_false]
  by_cases hr : (s.entry p).role = .active
  · rw [if_neg (fun hne => hne hr)]
    cases hs : s.switching
    · exact ⟨_, rfl, fun _ => rfl, fun _ h => by cases h⟩
    · by_cases hl : (s.link p).state = .linking
      · simp [hl]
      · cases hf : (s.link p).forceOnce || (s.link p).forceContinuous <;> simp [hr, hl]
  · simp [hr]

theorem settledLink_sends {limit : Nat} (h : ¬Loses limit l) (tagSent : Option Byte) (m : List CellFrame) (once : Bool)
    (last : Option Command) : (settledLink limit l tagSent m once last).state.sends = l.state.sends := by
  rw [settledLink, if_neg h]
  by_cases hm : Misses l
  · have hsends : l.state.sends = true := sends_iff.mpr (.inr hm.1)
    rw [if_pos hm, hsends]
    rfl
  · rw [if_neg hm]

/-- The plan that a period frame carries, written out (R132). -/
theorem carriedPlan_eq (s : State) (p : Port) (c : Command) : s.carriedPlan p c =
    if c = .block ∧ ¬(s.mode = .run ∧ s.rsq.stage = .align) then .nothing else (s.cport p).sent := by
  rw [carriedPlan]
  simp [aligning, imp_iff_not_or]

/-- A period frame, field by field (R132). -/
theorem periodFrame_eq (s : State) (p : Port) (c : Command) :
    let plan := if c = .block ∧ ¬(s.mode = .run ∧ s.rsq.stage = .align) then .nothing else (s.cport p).sent
    s.periodFrame p c =
      { urgent := false, port := p, tag := s.ctu.counter.setWidth 8, command := c, order := (s.entry p).bypassOrder
        pair := if c = .switch then s.rtu.pairs.get (phaseOf p) else neutralPair s.ctu.pInForce
        trim := match plan with
          | .trim x => x
          | _ => 0
        load := match plan with
          | .load n down => some (n, down)
          | _ => none } := by
  intro plan
  have hplan : s.carriedPlan p c = plan := s.carriedPlan_eq p c
  rw [periodFrame, hplan]
  cases plan <;> rfl

end State

open State in
/-- Settles O21: each port's record is followed through its judgement, the urgent BLOCKs and the composition. -/
theorem periodFramesComposed : Obligations.PeriodFramesComposed := by
  unfold Obligations.PeriodFramesComposed
  intro ok order s hs b
  obtain ⟨hreached, hall⟩ := s.periodEnd_reached ok order
  have hexec := hs.exec_periodStart ok order
  have hbegun := s.periodBegun_eq ok
  have hstart := fun p => s.periodBegun_link ok p
  have hb : s.sendDue = b := rfl
  have hsettings : b.settings = s.settings := by simp [b]
  rw [hb] at hbegun
  simp only [hb] at hstart
  clear_value b
  generalize s.periodEnd ok order = t at hreached hall hexec
  generalize s.periodBegun ok = u at hbegun hreached hstart
  have hn : u.ps.taken = [] := by rw [hbegun]; rfl
  have hj : u.ps.judged = [] := by rw [hbegun]; rfl
  have husettings : u.settings = s.settings := by rw [hbegun, hsettings]
  have hpin : u.ctu.pInForce = s.settings.p := by rw [hbegun, hsettings]
  refine ⟨_, hexec, ?_⟩
  intro p l counts misses loses unsent
  have hanswered : u.ps.answered[p.val] = l.accepted := by rw [hbegun]; simp [startProgress, l]
  obtain ⟨v, hv, hlate, hlink, hlost, hkept⟩ := hreached.port hn hj hall (by rw [husettings]) (hstart p) hanswered
  have hclock : v.ctu.clock = u.ctu.clock := (hv.courseAt hn).clock
  have hvpin : v.ctu.pInForce = s.settings.p := (Carrier.pInForce_of_clock hclock).trans hpin
  have hmode : t.mode = v.mode := hlate.mode.trans (by simp)
  have hrsq : t.rsq = v.rsq := hlate.rsq.trans (by simp)
  have hrtu : t.rtu = v.rtu := hlate.rtu.trans (by simp)
  have hctu : t.ctu = v.ctu := hlate.ctu.trans (by simp)
  obtain ⟨hrole, horder⟩ := hlate.entry p
  replace hrole : (t.entry p).role = (v.entry p).role := hrole.trans (by simp [entry])
  replace horder : (t.entry p).bypassOrder = (v.entry p).bypassOrder := horder.trans (by simp [entry])
  have hurgent : u.urgentFrame p .block = ⟨true, p, t.ctu.counter.setWidth 8, .block, (u.entry p).bypassOrder,
      neutralPair s.settings.p, 0, none⟩ := by
    have hcounter : u.ctu.counter = t.ctu.counter := by
      rw [hctu]
      exact (Carrier.counter_of_clock hclock).symm
    rw [urgentFrame, tag, hpin, hcounter]
  generalize hw : ({ t with ps := PeriodProgress.none } : State) = w
  have hwlink : w.link p = v.composedPort p (v.link p) := by rw [← hw]; exact hlink
  by_cases hl : loses
  · obtain ⟨transmit, hlen, hsettled⟩ := hlost hl
    have hstate : (v.link p).state = .lost := by rw [hsettled, settledLink, if_pos hl]
    rw [composedPort_silent (by rw [hstate]; rfl), hsettled] at hwlink
    rw [hwlink]
    refine ⟨rfl, fun _ => ⟨rfl, rfl, fun _ => ⟨rfl, hlen⟩, fun h => absurd hl h⟩, fun h => ?_⟩
    rw [← hsettled, hstate] at h
    rcases h with h | h | h <;> cases h
  · obtain ⟨urgent, hsettled, hnone, hform⟩ := hkept hl
    cases hsends : (v.link p).state.sends
    · have hl' : l.state.sends = false := by
        rw [hsettled, settledLink_sends hl] at hsends
        exact hsends
      rw [composedPort_silent hsends, hsettled, hnone hl', List.append_nil] at hwlink
      rw [hwlink]
      refine ⟨rfl, fun _ => ⟨rfl, rfl, fun h => absurd h hl, fun _ => ⟨rfl, rfl⟩⟩, fun h => ?_⟩
      rw [hnone hl', List.append_nil] at hsettled
      rw [← hsettled, ← sends_iff, hsends] at h
      cases h
    · obtain ⟨c, hc, hblock, hswitch⟩ := periodCommand_of_sends hsends
      have hcomposed : v.composedPort p (v.link p) = { v.link p with
          transmit := (v.link p).transmit ++ [v.periodFrame p c], tagSent := some v.tag, lastCommand := some c
          forceOnce := (v.link p).forceOnce && c != .zero } := by rw [composedPort, hc]
      rw [hcomposed] at hwlink
      have hfields : w.link p = settledLink s.settings.missLimit l (some v.tag) (unsent ++ urgent ++ [v.periodFrame p c])
          (l.forceOnce && c != .zero) (some c) := by rw [hwlink, hsettled]; rfl
      have hwstate : (w.link p).state = (v.link p).state := by rw [hwlink]
      have honce : (w.link p).forceOnce = (l.forceOnce && c != .zero) := by rw [hfields]; rfl
      have htransmit : (w.link p).transmit = unsent ++ urgent ++ [v.periodFrame p c] := by rw [hfields]; rfl
      have hurgents : ((w.link p).transmit.drop unsent.length).dropLast = urgent := by
        rw [htransmit, List.append_assoc, List.drop_left, List.dropLast_concat]
      have hforce : (v.link p).forceOnce = l.forceOnce ∧ (v.link p).forceContinuous = l.forceContinuous := by
        rw [hsettled]
        exact ⟨rfl, rfl⟩
      have hwmode : w.mode = v.mode := by rw [← hw]; exact hmode
      have hwrsq : w.rsq = v.rsq := by rw [← hw]; exact hrsq
      have hwrtu : w.rtu = v.rtu := by rw [← hw]; exact hrtu
      have hwctu : w.ctu = v.ctu := by rw [← hw]; exact hctu
      have hwpin : w.ctu.pInForce = s.settings.p := by rw [hwctu, hvpin]
      have hwcport : w.cport p = v.cport p := by rw [cport, hwctu, cport]
      have hwrole : (w.entry p).role = (v.entry p).role := by rw [← hw]; exact hrole
      have hworder : (w.entry p).bypassOrder = (v.entry p).bypassOrder := by rw [← hw]; exact horder
      refine ⟨by rw [hfields]; rfl, fun h => ?_, fun _ => ⟨c, by rw [hfields]; rfl, by rw [hfields, hwctu]; rfl, ⟨?_, ?_⟩, ?_, ?_⟩⟩
      · rw [hwstate] at h
        rcases h with h | h <;> rw [h] at hsends <;> cases hsends
      · rw [hurgents, htransmit]
        have hframe := v.periodFrame_eq p c
        rw [← hwmode, ← hwrsq, ← hwcport, ← hwctu, ← hwrtu, ← hworder, hwpin] at hframe
        exact congrArg (fun f => unsent ++ urgent ++ [f]) hframe
      · rw [hurgents]
        intro f hf
        have hfrom := hform f hf
        rw [hurgent] at hfrom
        rw [hwctu, ← hctu]
        exact hfrom
      · intro h
        have hc' : c = .block := hblock (by
          rw [hwrole, hwmode, hwrsq, hwstate] at h
          rcases h with h | h | h | h
          · exact .inl h
          · exact .inr (.inl (Bool.eq_false_iff.mpr fun hs => h (switching_iff.mp hs).1))
          · exact .inr (.inl (Bool.eq_false_iff.mpr fun hs => h (switching_iff.mp hs).2))
          · exact .inr (.inr h))
        exact ⟨hc', by rw [honce, hc']; simp⟩
      · intro hrole' hmode' hstage' hstate'
        have hc' := hswitch (hwrole ▸ hrole') (switching_iff.mpr ⟨hwmode ▸ hmode', hwrsq ▸ hstage'⟩) (hwstate ▸ hstate')
        rw [hforce.1, hforce.2] at hc'
        refine ⟨hc', ?_⟩
        rw [honce, hc']
        cases l.forceOnce <;> simp

end Machine
end Sys2Proof

/-! ### Targets and frame plans at a period start, and the alignment window (R96 to R104, R107) -/

namespace Sys2Proof

namespace Machine

namespace State

variable {s t u : State} {x : PsStep} {p : Port} {may : List PsStep → PsStep → Prop}

/-! The alignment window before the plan -/

theorem aligning_eq_true : s.aligning = true ↔ s.mode = .run ∧ s.rsq.stage = .align := by simp [aligning]

/-- The carrier records stay, and the window is closed where ALIGN is left. -/
structure Windowed (s t : State) : Prop where
  ports : t.ctu.ports = s.ctu.ports
  left : s.aligning = true → t.aligning = false → t.ctu.windowStart = none
  closed : s.ctu.windowStart = none → t.ctu.windowStart = none

/-- The same, and ALIGN is not entered: the window stays where the stage does. -/
structure Held (s t : State) : Prop extends Windowed s t where
  aligned : t.aligning = true → s.aligning = true ∧ t.ctu.windowStart = s.ctu.windowStart

theorem Windowed.trans (h : Windowed s t) (h' : Windowed t u) : Windowed s u where
  ports := h'.ports.trans h.ports
  left hs hu := by
    cases ht : t.aligning
    · exact h'.closed (h.left hs ht)
    · exact h'.left ht hu
  closed hs := h'.closed (h.closed hs)

theorem Held.trans (h : Held s t) (h' : Held t u) : Held s u where
  toWindowed := h.toWindowed.trans h'.toWindowed
  aligned hu := by
    obtain ⟨ht, hw⟩ := h'.aligned hu
    obtain ⟨hs, hw'⟩ := h.aligned ht
    exact ⟨hs, hw.trans hw'⟩

theorem held_of_same (hm : t.mode = s.mode) (hr : t.rsq.stage = s.rsq.stage) (hc : t.ctu = s.ctu) : Held s t := by
  have ha : t.aligning = s.aligning := by rw [aligning, aligning, hm, hr]
  have hleft (hs : s.aligning = true) (ht : t.aligning = false) : t.ctu.windowStart = none := by
    rw [ha, hs] at ht
    cases ht
  exact ⟨⟨by rw [hc], hleft, fun h => by rw [hc, h]⟩, fun h => ⟨ha ▸ h, by rw [hc]⟩⟩

theorem Held.refl (s : State) : Held s s := held_of_same rfl rfl rfl

theorem held_of_apart (hs : s.rsq.stage ≠ .align) (ht : t.rsq.stage ≠ .align) (hc : t.ctu = s.ctu) : Held s t := by
  have hnone {u : State} (hu : u.rsq.stage ≠ .align) : ¬u.aligning = true := fun h => hu (aligning_eq_true.mp h).2
  exact ⟨⟨by rw [hc], fun h => absurd h (hnone hs), fun h => by rw [hc, h]⟩, fun h => absurd h (hnone ht)⟩

theorem held_of_closed (hp : t.ctu.ports = s.ctu.ports) (hw : t.ctu.windowStart = none) (ha : t.aligning = false) : Held s t :=
  ⟨⟨hp, fun _ _ => hw, fun _ => hw⟩, fun h => by rw [ha] at h; cases h⟩

theorem held_requestTrip (s : State) (r : TripRequest) : Held s (s.requestTrip r) := by
  by_cases hm : s.mode = .run
  · rw [requestTrip_of_run hm, departRun_eq]
    exact held_of_closed (by simp) rfl rfl
  · rw [requestTrip_of_not_run hm]
    exact Held.refl s

theorem held_push (s : State) (st : Stage) (gap : Nat) (policy : Option PolicyEntry) : Held s (s.push st gap policy) := by
  have hctu : (s.push st gap policy).ctu = { s.ctu with windowStart := none } := by simp [push, enterInhibit, closeWindow]
  refine held_of_closed (by rw [hctu]) (by rw [hctu]) ?_
  rw [aligning, push_stage]
  simp

theorem held_latchEffect (s : State) (p : Port) : Held s (s.latchEffect p).1 := by
  have hisolating : Held s (s.makeIsolating p) := held_of_same (by simp) (by simp) (by simp)
  simp only [latchEffect, latchActive, openEpisode, joinRecovery, pushBack]
  repeat' split
  all_goals first
    | with_reducible exact Held.refl s
    | with_reducible exact hisolating
    | with_reducible exact hisolating.trans (held_push _ _ _ _)
    | exact held_of_same (by simp) (by simp) (by simp)

theorem held_latchKept (s : State) : LatchKept (Held s) := by
  refine ⟨⟨?record, ?raise, ?trip, ?effect, ?count, ?outside, ?freed⟩, ?countPort, ?cutPort⟩
  case trip => exact fun t r h => h.trans (held_requestTrip t r)
  case effect => exact fun t p _ h => h.trans (held_latchEffect t p)
  all_goals
    intro t
    intros
    exact Held.trans ‹_› (held_of_same (by simp) (by simp) (by simp))

/-- A step that is neither the sequencer's response nor the plan. -/
theorem runStep_held (hs : x ≠ .sequencer) (hp : x ≠ .plan) : Held s (s.runStep x) := by
  have k := held_latchKept s
  have h := Held.refl s
  cases x
  case sequencer => exact absurd rfl hs
  case plan => exact absurd rfl hp
  case links => exact k.linksStep h
  case window => exact k.windowStep h
  case hold =>
    have hcounted : Held s (s.updCli (fun c => { c with holdCount := s.holdAfter })) := held_of_same rfl rfl rfl
    simp only [runStep, holdStep]
    split
    · exact hcounted.trans (held_requestTrip _ _)
    · exact hcounted
  case fail =>
    simp only [runStep, failStep, closeFailed]
    repeat' split
    · rename_i a _ _ _ _ _
      have htripped : Held s (((s.setRetry a.port true).raise .bypassFail).requestTrip
          { cause := .bypassFail, port := some a.port }) :=
        (held_of_same (by simp) (by simp) (by simp)).trans (held_requestTrip _ _)
      exact htripped.trans (held_of_same (by simp) (by simp) (by simp))
    all_goals exact held_of_same (by simp) (by simp) (by simp)
  all_goals exact held_of_same (by simp [runStep]) (by simp [runStep]) (by simp [runStep])

/-- But for REMAP completion a stage progression does not enter ALIGN. -/
theorem stageProgress_held (h : s.rsq.stage ≠ .remap) : Held s s.stageProgress := by
  cases hs : s.rsq.stage <;> simp only [stageProgress, hs]
  case remap => exact absurd hs h
  case normal => exact Held.refl s
  case inhibit =>
    refine held_of_apart (by simp [hs]) ?_ (by simp)
    rcases inhibitProgress_stage hs with hstage | hstage <;> simp [hstage]
  case isolate =>
    split
    · exact held_of_apart (by simp [hs]) (by simp [enterRemap]) (by simp)
    · exact Held.refl s
  case align =>
    split
    · exact held_of_closed (by simp [enterAwaitGrant, closeWindow]) (by simp [enterAwaitGrant, closeWindow])
        (by simp [aligning, enterAwaitGrant])
    · exact Held.refl s
  case awaitGrant =>
    split
    · exact held_of_apart (by simp [hs]) (by simp [enterResume]) (by simp)
    · exact Held.refl s
  case resume =>
    refine held_of_apart (by simp [hs]) ?_ (by simp)
    simp only [resumeProgress, endResume]
    repeat' split
    all_goals simp [hs]

/-- REMAP completion closes the window where it enters ALIGN. -/
theorem remapCompletion_windowed (s : State) : Windowed s s.remapCompletion ∧
    (s.remapCompletion.aligning = true → (s.aligning = true ∧ s.remapCompletion.ctu.windowStart = s.ctu.windowStart) ∨
      s.remapCompletion.ctu.windowStart = none) := by
  have hboth {t : State} (h : Held s t) : Windowed s t ∧ (t.aligning = true →
      (s.aligning = true ∧ t.ctu.windowStart = s.ctu.windowStart) ∨ t.ctu.windowStart = none) :=
    ⟨h.toWindowed, fun ht => .inl (h.aligned ht)⟩
  have hrebuilt : Held s s.rebuild.applyRecovery := held_of_same (by simp) (by simp) (by simp)
  have hdeferred (l : List Port) : Held s (l.foldl makeIsolating s.rebuild.applyRecovery) :=
    hrebuilt.trans (held_of_same (by simp) (by simp) (by simp))
  simp only [remapCompletion, acceptDeferred]
  repeat' split
  · exact hboth (hrebuilt.trans (held_requestTrip _ _))
  · have hports := hrebuilt.ports
    generalize s.rebuild.applyRecovery = v at hports
    have hctu : v.enterAlign.ctu = { v.ctu with windowStart := none } := by simp [enterAlign, closeWindow]
    exact ⟨⟨by rw [hctu, hports], fun _ _ => by rw [hctu], fun _ => by rw [hctu]⟩, fun _ => .inr (by rw [hctu])⟩
  · exact hboth ((hdeferred _).trans (held_requestTrip _ _))
  · exact hboth ((hdeferred _).trans (held_requestTrip _ _))
  · exact hboth ((hdeferred _).trans (held_push _ _ _ _))

/-- The sequencer's response enters ALIGN from REMAP alone, and closes the window then. -/
theorem sequencerStep_windowed (s : State) : Windowed s s.sequencerStep ∧ (s.sequencerStep.aligning = true →
    (s.aligning = true ∧ s.sequencerStep.ctu.windowStart = s.ctu.windowStart) ∨
      (s.mode = .run ∧ s.rsq.stage = .remap ∧ s.sequencerStep.ctu.windowStart = none)) := by
  have hstage : s.gapStep.rsq.stage = s.rsq.stage := by
    rw [gapStep]
    split <;> rfl
  have hgap : Held s s.gapStep := held_of_same (by simp) hstage (by simp)
  have hboth {t : State} (h : Held s t) : Windowed s t ∧ (t.aligning = true →
      (s.aligning = true ∧ t.ctu.windowStart = s.ctu.windowStart) ∨
        (s.mode = .run ∧ s.rsq.stage = .remap ∧ t.ctu.windowStart = none)) := ⟨h.toWindowed, fun ht => .inl (h.aligned ht)⟩
  by_cases hm : s.mode = .run
  · rw [sequencerStep, if_pos hm]
    split
    · exact hboth (hgap.trans (held_requestTrip _ _))
    by_cases hs : s.rsq.stage = .remap
    · obtain ⟨hwindow, haligned⟩ := s.gapStep.remapCompletion_windowed
      have hprogress : s.gapStep.stageProgress = s.gapStep.remapCompletion := by rw [stageProgress, hstage, hs]
      rw [hprogress]
      refine ⟨hgap.toWindowed.trans hwindow, fun ha => .inr ⟨hm, hs, ?_⟩⟩
      rcases haligned ha with ⟨h, -⟩ | h
      · have := (aligning_eq_true.mp h).2
        rw [hstage, hs] at this
        cases this
      · exact h
    · exact hboth (hgap.trans (stageProgress_held (by rwa [hstage])))
  · rw [sequencerStep_idle (.inl hm)]
    exact hboth (Held.refl s)

theorem runStep_windowed (hp : x ≠ .plan) : Windowed s (s.runStep x) := by
  by_cases hs : x = .sequencer
  · subst hs
    exact s.sequencerStep_windowed.1
  · exact (runStep_held hs hp).toWindowed

/-! The window and the carrier records that the plan finds -/

theorem Reached.windowed (hr : Reached may s t) (hp : .plan ∉ t.ps.taken) : Windowed s t := by
  refine hr.keeps (P := Windowed s) (Held.refl s).toWindowed fun u x hu hx _ ht hkept => hkept.trans ?_
  have hstep : Windowed (u.taking x) ((u.taking x).runStep x) := runStep_windowed (fun h => hp (h ▸ ht))
  exact ⟨hstep.ports, hstep.left, hstep.closed⟩

theorem Reached.held (hr : Reached may s t) (hp : .plan ∉ t.ps.taken)
    (hs : .sequencer ∈ s.ps.taken ∨ .sequencer ∉ t.ps.taken) : Held s t := by
  refine hr.keeps (P := Held s) (Held.refl s) fun u x hu hx _ ht hkept => hkept.trans ?_
  have hne : x ≠ .sequencer := by
    rintro rfl
    exact hs.elim (fun h => hx (hu.kept h)) (fun h => h ht)
  have hstep : Held (u.taking x) ((u.taking x).runStep x) := runStep_held hne (fun h => hp (h ▸ ht))
  exact ⟨⟨hstep.ports, hstep.left, hstep.closed⟩, hstep.aligned⟩

/-- The window that the plan finds in ALIGN: that of the alignment under way, or none (R102, R107). -/
theorem Reached.window (hr : Reached may s t) (hn : s.ps.taken = []) (hq : .sequencer ∈ t.ps.taken) (hp : .plan ∉ t.ps.taken)
    (ha : t.aligning = true) : t.ctu.windowStart = if s.rsq.stage = .align then s.ctu.windowStart else none := by
  obtain ⟨u, hu, hxu, -, -, hafter⟩ := hr.split (x := .sequencer) (by simp [hn]) hq
  have hsub : u.ps.taken ⊆ t.ps.taken := fun y hy => hafter.kept (by rw [taking_runStep_taken]; exact List.mem_cons_of_mem _ hy)
  have hfirst : Held s u := hu.held (fun h => hp (hsub h)) (.inr hxu)
  have hlast := hafter.held hp (.inl (by rw [taking_runStep_taken]; exact List.mem_cons_self ..))
  obtain ⟨hva, hvw⟩ := hlast.aligned ha
  rw [hvw]
  rcases (u.taking .sequencer).sequencerStep_windowed.2 hva with ⟨hua, huw⟩ | ⟨hrun, hremap, hclosed⟩
  · obtain ⟨hsa, hsw⟩ := hfirst.aligned hua
    rw [if_pos (aligning_eq_true.mp hsa).2]
    exact huw.trans hsw
  · have hstage : s.rsq.stage ≠ .align := fun hs => by
      rcases hu.sentBack (.inr hxu) with h | ⟨-, h | h⟩
      · exact h hrun
      · rw [hs] at h
        cases h.symm.trans hremap
      · cases h.symm.trans hremap
    rw [if_neg hstage]
    exact hclosed

end State
end Machine
end Sys2Proof

/-! ### The plan of a period start (R96 to R104) -/

namespace Sys2Proof

namespace Machine

namespace State

variable {s t u : State} {x : PsStep} {p : Port} {c : CarrierPort} {may : List PsStep → PsStep → Prop}

/-! What the plan makes of a port's carrier record -/

/-- A string cell is loaded again at a later period start of ALIGN where its last judged error exceeds A_tol (R103). -/
def Reloads (s : State) (c : CarrierPort) : Prop := ∃ x, c.lastError = some x ∧ s.settings.aTol < x.natAbs

theorem reloads_iff : c.lastError.any (fun e => decide (s.settings.aTol < e.natAbs)) = true ↔ s.Reloads c := by
  simp [Reloads, Option.any_eq_true]

/-- The record that the plan makes before it is known whether the port is sent a frame. -/
def plannedRecord (s : State) (p : Port) (c : CarrierPort) : CarrierPort :=
  if s.aligning ∧ (s.entry p).inString then
    if s.ctu.windowStart.isNone then s.beginAlign p (s.targetNow p) { c with target := s.targetNow p }
    else s.continueAlign p (s.targetNow p) { c with target := s.targetNow p }
  else { c with target := s.targetNow p, sent := s.otherPlan p }

theorem plannedPort_eq (s : State) (p : Port) (c : CarrierPort) : s.plannedPort p c =
    { s.plannedRecord p c with sent := if (s.link p).state.sends then (s.plannedRecord p c).sent else .nothing } := by
  have hplanned : s.plannedPort p c =
      if (s.link p).state.sends then s.plannedRecord p c else { s.plannedRecord p c with sent := .nothing } := rfl
  rw [hplanned]
  split <;> rfl

/-- A cell that is loaded: at the beginning of an alignment, or again (R102, R103). -/
theorem plannedRecord_loaded (ha : s.aligning = true) (hs : (s.entry p).inString = true)
    (h : s.ctu.windowStart = none ∨ s.Reloads c) : s.plannedRecord p c = { c with
      target := s.targetNow p, sent := s.loadPlan p (s.targetNow p), lastError := none, passCount := 0, aligned := false } := by
  rw [plannedRecord, if_pos ⟨ha, hs⟩]
  by_cases hw : s.ctu.windowStart = none
  · rw [if_pos (by simp [hw])]
    rfl
  · have hreloads := reloads_iff.mpr (h.resolve_left hw)
    rw [if_neg (by simpa using hw), continueAlign]
    dsimp only
    split <;> rfl

/-- A cell that goes on in ALIGN: it is trimmed, and loses its passes where it is not aligned and was silent (R103, R104). -/
theorem plannedRecord_trimmed (ha : s.aligning = true) (hs : (s.entry p).inString = true) (hw : s.ctu.windowStart ≠ none)
    (h : ¬s.Reloads c) : s.plannedRecord p c = { c with
      target := s.targetNow p, sent := s.trimPlan p
      passCount := if c.aligned = false ∧ s.ps.answered[p.val] = false then 0 else c.passCount } := by
  have hreloads := mt reloads_iff.mp h
  rw [plannedRecord, if_pos ⟨ha, hs⟩, if_neg (by simpa using hw), continueAlign]
  by_cases hm : c.aligned = false ∧ s.ps.answered[p.val] = false
  · have hmissed : (!c.aligned && !s.ps.answered[p.val]) = true := by simp [hm.1, hm.2]
    simp only [hmissed, if_true, if_pos hm]
    rw [if_neg hreloads]
  · have hmissed : (!c.aligned && !s.ps.answered[p.val]) = false := by
      rw [Bool.eq_false_iff]
      exact fun h => hm (by simpa using h)
    simp only [hmissed, Bool.false_eq_true, if_false, if_neg hm]
    rw [if_neg hreloads]

theorem plannedRecord_other (h : ¬(s.aligning = true ∧ (s.entry p).inString = true)) :
    s.plannedRecord p c = { c with target := s.targetNow p, sent := s.otherPlan p } := if_neg h

theorem otherPlan_trims (hs : s.switching = true) (hr : (s.entry p).role = .active) : s.otherPlan p = s.trimPlan p := by
  obtain ⟨hm, hstage⟩ := switching_iff.mp hs
  exact if_pos ⟨hm, hstage, hr⟩

theorem otherPlan_nothing (h : ¬(s.switching = true ∧ (s.entry p).role = .active)) : s.otherPlan p = .nothing :=
  if_neg fun ⟨hm, hstage, hr⟩ => h ⟨switching_iff.mpr ⟨hm, hstage⟩, hr⟩

theorem Plan.usable_iff {l : Plan} : l.usable = true ↔ l = .nothing ∨ l = .trim 0 := by
  cases l <;> simp [Plan.usable]

/-- A trim comes from the capture of a period answered, where it is usable; else it is 0 (R99, R100). -/
theorem trimPlan_spec (s : State) (p : Port) :
    (∀ a x, s.ps.answered[p.val] = true → (s.cport p).sent = .nothing ∨ (s.cport p).sent = .trim 0 →
      (s.cport p).capture = some a → a.error = some x → s.trimPlan p = .trim (trimOf x s.settings.j)) ∧
    (s.ps.answered[p.val] = false ∨ ¬((s.cport p).sent = .nothing ∨ (s.cport p).sent = .trim 0) ∨
      (s.cport p).capture.bind (fun a => a.error) = none → s.trimPlan p = .trim 0) := by
  refine ⟨fun a x ha hu hc he => ?_, fun h => ?_⟩
  · rw [trimPlan, usableError?, if_pos ⟨ha, Plan.usable_iff.mpr hu⟩, hc, Option.bind_some, he]
    rfl
  · have hnone : s.usableError? p = none := by
      rw [usableError?]
      split
      · rename_i hu
        rcases h with h | h | h
        · rw [h] at hu
          simp at hu
        · exact absurd (Plan.usable_iff.mp hu.2) h
        · exact h
      · rfl
    rw [trimPlan, hnone]
    rfl

theorem planStep_cport (s : State) (p : Port) : s.planStep.cport p = s.plannedPort p (s.cport p) := by
  simp only [planStep, cport, updCtu_ctu]
  split <;> simp [mapCports, cport]

theorem planStep_windowStart (s : State) : s.planStep.ctu.windowStart =
    if s.aligning = true ∧ s.ctu.windowStart = none then some s.ctu.counter else s.ctu.windowStart := by
  simp only [planStep, updCtu_ctu, Option.isNone_iff_eq_none]
  split <;> simp [mapCports]

theorem plannedPort_kept (s : State) (p : Port) (c : CarrierPort) :
    (s.plannedPort p c).target = s.targetNow p ∧ (s.plannedPort p c).capture = c.capture := by
  rw [plannedPort_eq]
  by_cases h : s.aligning = true ∧ (s.entry p).inString = true
  · by_cases hload : s.ctu.windowStart = none ∨ s.Reloads c
    · rw [plannedRecord_loaded h.1 h.2 hload]
      exact ⟨rfl, rfl⟩
    · rw [plannedRecord_trimmed h.1 h.2 (fun hw => hload (.inl hw)) (fun hr => hload (.inr hr))]
      exact ⟨rfl, rfl⟩
  · rw [plannedRecord_other h]
    exact ⟨rfl, rfl⟩

/-- A string cell that is trimmed, and an ACTIVE cell in NORMAL and RESUME of RUN, are given the trim of their capture. -/
theorem plannedPort_sent_trim (hs : (s.link p).state.sends = true)
    (h : (s.aligning = true ∧ (s.entry p).inString = true ∧ s.ctu.windowStart ≠ none ∧ ¬s.Reloads c) ∨
      (s.switching = true ∧ (s.entry p).role = .active)) : (s.plannedPort p c).sent = s.trimPlan p := by
  rw [plannedPort_eq, if_pos hs]
  rcases h with ⟨ha, hstring, hw, hr⟩ | ⟨hswitching, hrole⟩
  · rw [plannedRecord_trimmed ha hstring hw hr]
  · have hnot : ¬(s.aligning = true ∧ (s.entry p).inString = true) := fun h => by
      have hstage := (aligning_eq_true.mp h.1).2
      rcases (switching_iff.mp hswitching).2 with h | h <;> rw [hstage] at h <;> cases h
    rw [plannedRecord_other hnot, otherPlan_trims hswitching hrole]

theorem plannedPort_sent_nothing (h : (s.link p).state.sends = false ∨
    (¬(s.aligning = true ∧ (s.entry p).inString = true) ∧ ¬(s.switching = true ∧ (s.entry p).role = .active))) :
    (s.plannedPort p c).sent = .nothing := by
  rw [plannedPort_eq]
  rcases h with h | ⟨h, hother⟩
  · exact if_neg (by simp [h])
  · rw [plannedRecord_other h, otherPlan_nothing hother]
    exact ite_self _

/-! After the plan -/

/-- What the rules let be taken after the plan leaves what the plan has used and made. -/
structure Planned (s t : State) : Prop where
  mode : t.mode = s.mode
  rsq : t.rsq = s.rsq
  ctu : t.ctu = s.ctu
  link : ∀ p, (t.link p).state = (s.link p).state
  entry : ∀ p, (t.entry p).role = (s.entry p).role ∧ (t.entry p).position = (s.entry p).position ∧
    (t.entry p).linkDelay = (s.entry p).linkDelay

theorem Planned.trans (h : Planned s t) (h' : Planned t u) : Planned s u where
  mode := h'.mode.trans h.mode
  rsq := h'.rsq.trans h.rsq
  ctu := h'.ctu.trans h.ctu
  link p := (h'.link p).trans (h.link p)
  entry p := by
    obtain ⟨hr, hp, hd⟩ := h.entry p
    obtain ⟨hr', hp', hd'⟩ := h'.entry p
    exact ⟨hr'.trans hr, hp'.trans hp, hd'.trans hd⟩

theorem planned_of_roster (hm : t.mode = s.mode) (hr : t.rsq = s.rsq) (hc : t.ctu = s.ctu)
    (hl : ∀ p, (t.link p).state = (s.link p).state) (he : t.roster = s.roster) : Planned s t :=
  ⟨hm, hr, hc, hl, fun p => by simp [State.entry, he]⟩

theorem runStep_planned (hx : x ∈ [PsStep.reference, .leak, .commit, .compute, .issue, .compose]) : Planned s (s.runStep x) := by
  simp only [List.mem_cons, List.not_mem_nil, or_false] at hx
  rcases hx with rfl | rfl | rfl | rfl | rfl | rfl
  · exact planned_of_roster (by simp [runStep]) (by simp [runStep]) (by simp [runStep]) (fun p => by simp [runStep, State.link])
      (by simp [runStep])
  · refine ⟨by simp [runStep], by simp [runStep], by simp [runStep], fun p => by simp [runStep, State.link], fun p => ?_⟩
    simp only [runStep, leakStep]
    split <;> simp [mapEntries, State.entry]
  · exact planned_of_roster (by simp [runStep]) (by simp [runStep]) (by simp [runStep]) (fun p => by simp [runStep, State.link])
      (by simp [runStep])
  · exact planned_of_roster (by simp [runStep]) (by simp [runStep]) (by simp [runStep]) (fun p => by simp [runStep, State.link])
      (by simp [runStep])
  · refine ⟨by simp [runStep], by simp [runStep], by simp [runStep], fun p => by simp [runStep, State.link], fun p => ?_⟩
    simp only [runStep, issueStep]
    split
    · rw [updEntry_entry]
      split
      · rename_i hp
        subst hp
        exact ⟨rfl, rfl, rfl⟩
      · exact ⟨rfl, rfl, rfl⟩
    · exact ⟨rfl, rfl, rfl⟩
  · refine planned_of_roster (by simp [runStep]) (by simp [runStep]) (by simp [runStep]) (fun p => ?_) (by simp [runStep])
    simp only [runStep, composeStep, mapLinks_link, composedPort]
    split <;> rfl

theorem Reached.planned (hr : Reached may s t) (hn : .plan ∈ s.ps.taken) (hneeds : PsStep.needs .plan ⊆ s.ps.taken) :
    Planned s t := by
  refine hr.keeps (P := Planned s) ⟨rfl, rfl, rfl, fun _ => rfl, fun _ => ⟨rfl, rfl, rfl⟩⟩ fun u x hu hx _ _ hkept => hkept.trans ?_
  have hlate : x ∈ [PsStep.reference, .leak, .commit, .compute, .issue, .compose] := by
    have hnot : x ∉ PsStep.needs .plan := fun hm => hx (hu.kept (hneeds hm))
    have hne : x ≠ .plan := fun h => hx (hu.kept (h ▸ hn))
    cases x <;> simp [PsStep.needs] at hnot hne ⊢
  have hstep := runStep_planned (s := u.taking x) hlate
  exact ⟨hstep.mode, hstep.rsq, hstep.ctu, hstep.link, hstep.entry⟩

/-- The plan in a whole period start. -/
theorem Reached.planning (hr : Reached may s t) (hn : s.ps.taken = []) (hall : ∀ x, x ∈ t.ps.taken) :
    ∃ u, Reached may s u ∧ .plan ∉ u.ps.taken ∧ .sequencer ∈ u.ps.taken ∧ Planned u.planStep t := by
  obtain ⟨u, hu, hxu, hneeds, -, hafter⟩ := hr.split (x := .plan) (by simp [hn]) (hall _)
  have htaken : ((u.taking .plan).runStep .plan).ps.taken = .plan :: u.ps.taken := taking_runStep_taken u _
  have hlate := hafter.planned (htaken ▸ List.mem_cons_self ..) fun y hy => htaken ▸ List.mem_cons_of_mem _ (hneeds hy)
  exact ⟨u, hu, hxu, hneeds (by simp [PsStep.needs]), ⟨hlate.mode, hlate.rsq, hlate.ctu, hlate.link, hlate.entry⟩⟩

/-- What the plan of a whole period start found, and what it has left of a port (R96 to R104). -/
structure PlannedFrom (s v t : State) : Prop where
  course : CourseAt s v
  ports : v.ctu.ports = s.ctu.ports
  window : v.aligning = true → v.ctu.windowStart = if s.rsq.stage = .align then s.ctu.windowStart else none
  left : s.aligning = true → v.aligning = false → v.ctu.windowStart = none
  mode : t.mode = v.mode
  rsq : t.rsq = v.rsq
  link : ∀ p, (t.link p).state = (v.link p).state
  entry : ∀ p, (t.entry p).role = (v.entry p).role ∧ (t.entry p).position = (v.entry p).position ∧
    (t.entry p).linkDelay = (v.entry p).linkDelay
  windowStart : t.ctu.windowStart =
    if v.aligning = true ∧ v.ctu.windowStart = none then some v.ctu.counter else v.ctu.windowStart
  cport : ∀ p, t.cport p = v.plannedPort p (s.cport p)

theorem Reached.plannedFrom (hr : Reached may s t) (hn : s.ps.taken = []) (hall : ∀ x, x ∈ t.ps.taken) :
    ∃ v, PlannedFrom s v t := by
  obtain ⟨v, hv, hxv, hq, hlate⟩ := hr.planning hn hall
  have hwindowed := hv.windowed hxv
  refine ⟨v, hv.courseAt hn, hwindowed.ports, hv.window hn hq hxv, hwindowed.left, hlate.mode.trans (by simp),
    hlate.rsq.trans (by simp), fun p => (hlate.link p).trans (by simp [State.link]), fun p => ?_, ?_, fun p => ?_⟩
  · obtain ⟨hrole, hposition, hdelay⟩ := hlate.entry p
    exact ⟨hrole.trans (by simp [State.entry]), hposition.trans (by simp [State.entry]), hdelay.trans (by simp [State.entry])⟩
  · rw [hlate.ctu, planStep_windowStart]
  · have hsame : v.cport p = s.cport p := by rw [State.cport, State.cport, hwindowed.ports]
    rw [State.cport, hlate.ctu, ← State.cport, planStep_cport, hsame]

theorem PlannedFrom.aligning {v : State} (h : PlannedFrom s v t) : t.aligning = v.aligning := by
  rw [State.aligning, State.aligning, h.mode, h.rsq]

theorem PlannedFrom.switching {v : State} (h : PlannedFrom s v t) : t.switching = v.switching := by
  rw [State.switching, State.switching, h.mode, h.rsq]

theorem PlannedFrom.stringLength {v : State} (h : PlannedFrom s v t) (x : Phase) : t.stringLength x = v.stringLength x := by
  have hphase : t.phaseString x = v.phaseString x :=
    phaseString_congr (fun p _ => by rw [RosterEntry.inString, RosterEntry.inString, (h.entry p).1]) fun p _ => (h.entry p).2.1
  exact congrArg List.length hphase

end State

open State in
/-- Settles O23: the plan is made on the strings, the window and the captures that nothing after it changes. -/
theorem carrierPlansAtPeriodStart : Obligations.CarrierPlansAtPeriodStart := by
  unfold Obligations.CarrierPlansAtPeriodStart
  intro ok order s hs b
  obtain ⟨hreached, hall⟩ := s.periodEnd_reached ok order
  have hexec := hs.exec_periodStart ok order
  have hbegun := s.periodBegun_eq ok
  have hb : s.sendDue = b := rfl
  have hsettings : b.settings = s.settings := by simp [b]
  rw [hb] at hbegun
  clear_value b
  generalize s.periodEnd ok order = t at hreached hall hexec
  generalize s.periodBegun ok = u at hbegun hreached
  obtain ⟨v, hv⟩ := hreached.plannedFrom (by rw [hbegun]; rfl) hall
  have hclock := hv.course.clock
  have hupin : u.ctu.pInForce = s.settings.p := by rw [hbegun, hsettings]
  have hubases : u.ctu.bases = s.settings.bases := by rw [hbegun, hsettings]
  have hpin : v.ctu.pInForce = s.settings.p := (Carrier.pInForce_of_clock hclock).trans hupin
  have hbases : v.ctu.bases = s.settings.bases := (Carrier.bases_of_clock hclock).trans hubases
  have hvsettings : v.settings = s.settings := hv.course.settings.trans (by rw [hbegun, hsettings])
  have hanswered (p : Port) : v.ps.answered[p.val] = (b.link p).accepted := by
    rw [hv.course.answered, hbegun]
    simp [startProgress]
  have hualigning : u.aligning = true ↔ b.mode = .run ∧ b.rsq.stage = .align := by
    rw [aligning_eq_true, hbegun]
  have hwindow (ha : v.aligning = true) : v.ctu.windowStart = if b.rsq.stage = .align then b.ctu.windowStart else none := by
    rw [hv.window ha, hbegun]
  have hbegins (ha : v.aligning = true) :
      v.ctu.windowStart = none ↔ ¬(b.rsq.stage = .align ∧ b.ctu.windowStart.isSome = true) := by
    rw [hwindow ha]
    by_cases hs : b.rsq.stage = .align
    · simp [hs]
    · simp [hs]
  have hctu : t.ctu.counter = v.ctu.counter :=
    Carrier.counter_of_clock ((hreached.courseAt (by rw [hbegun]; rfl)).clock.trans hclock.symm)
  have haligning := hv.aligning
  have hswitching := hv.switching
  refine ⟨_, hexec, fun hm hst => ?_, fun hm hst hnot => ?_, ?_⟩
  · have ha : v.aligning = true := haligning ▸ aligning_eq_true.mpr ⟨hm, hst⟩
    refine hv.windowStart.trans ?_
    by_cases hbegin : b.rsq.stage = .align ∧ b.ctu.windowStart.isSome = true
    · rw [if_neg fun h => (hbegins ha).mp h.2 hbegin, if_pos hbegin, hwindow ha, if_pos hbegin.1]
    · rw [if_pos ⟨ha, (hbegins ha).mpr hbegin⟩, if_neg hbegin, ← hctu]
  · have ha : v.aligning = false := by
      rw [← haligning, Bool.eq_false_iff]
      exact fun h => hnot.elim (fun hne => hne (aligning_eq_true.mp h).1) (fun hne => hne (aligning_eq_true.mp h).2)
    refine hv.windowStart.trans ?_
    rw [if_neg (by simp [ha]), hv.left (hualigning.mpr ⟨hm, hst⟩) ha]
  · generalize hw : ({ t with ps := PeriodProgress.none } : State) = w
    intro p c e string sends aligning begins reloads load
    obtain ⟨hrole, hposition, hdelay⟩ := hv.entry p
    have hc : u.cport p = c := by rw [hbegun]; rfl
    have hvc : v.cport p = c := by rw [← hc, cport, cport, hv.ports]
    have hport : w.cport p = v.plannedPort p c := by
      rw [← hw, ← hc]
      exact hv.cport p
    have hrole : (v.entry p).role = e.role := by rw [← hrole]; simp only [e, ← hw]; rfl
    have hposition : (v.entry p).position = e.position := by rw [← hposition]; simp only [e, ← hw]; rfl
    have hdelay : (v.entry p).linkDelay = e.linkDelay := by rw [← hdelay]; simp only [e, ← hw]; rfl
    have hlength : v.stringLength (phaseOf p) = w.stringLength (phaseOf p) := by rw [← hv.stringLength, ← hw]; rfl
    have hstring : (v.entry p).inString = true ↔ string := by rw [RosterEntry.inString_iff, hrole]
    have hsends : (v.link p).state.sends = true ↔ sends := by
      rw [sends_iff, ← hv.link p]
      simp only [sends, ← hw]
      exact Iff.rfl
    have haligns : v.aligning = true ↔ aligning := by
      rw [← haligning, aligning_eq_true]
      simp only [aligning, ← hw]
    have hswitches : v.switching = true ↔ w.mode = .run ∧ (w.rsq.stage = .normal ∨ w.rsq.stage = .resume) := by
      rw [← hswitching, switching_iff]
      simp only [← hw]
    have hreloads : v.Reloads c ↔ reloads := by rw [Reloads, hvsettings]
    have hother (h : ¬(aligning ∧ string)) : ¬(v.aligning = true ∧ (v.entry p).inString = true) := fun hboth =>
      h ⟨haligns.mp hboth.1, hstring.mp hboth.2⟩
    have hgoes (ha : aligning) (hb : ¬begins) (hr : ¬reloads) : v.ctu.windowStart ≠ none ∧ ¬v.Reloads c :=
      ⟨mt (hbegins (haligns.mpr ha)).mp hb, mt hreloads.mp hr⟩
    obtain ⟨htarget, hcapture⟩ := v.plannedPort_kept p c
    rw [← hport] at htarget hcapture
    have hplanned := hport.trans (v.plannedPort_eq p c)
    refine ⟨fun hstr => ?_, fun hstr => ?_, hcapture, fun hs => ?_, fun h => ?_, fun ha hstr h => ?_, fun ha hstr hb hr => ?_,
      fun h hs => ?_, fun h h' => ?_⟩
    · rw [htarget, targetNow, if_pos (hstring.mpr hstr), hbases, hpin, hposition, hlength]
      rfl
    · rw [htarget, targetNow, if_neg (mt hstring.mp hstr)]
    · rw [hport, plannedPort_sent_nothing (.inl (by simpa using mt hsends.mp hs))]
    · rw [hplanned, plannedRecord_other (hother h)]
    · have hload : v.loadPlan p (v.targetNow p) = load := by
        rw [loadPlan, hdelay, hpin, ← htarget]
      rw [hplanned, plannedRecord_loaded (haligns.mpr ha) (hstring.mpr hstr)
        (h.imp (hbegins (haligns.mpr ha)).mpr hreloads.mpr), hload]
      by_cases hs : sends
      · rw [if_pos hs, if_pos (hsends.mpr hs)]
      · rw [if_neg hs, if_neg (mt hsends.mp hs)]
    · obtain ⟨hwindow', hreloads'⟩ := hgoes ha hb hr
      rw [hplanned, plannedRecord_trimmed (haligns.mpr ha) (hstring.mpr hstr) hwindow' hreloads', hanswered]
    · have hsent : (w.cport p).sent = v.trimPlan p := by
        rw [hport]
        refine plannedPort_sent_trim (hsends.mpr hs) (h.imp (fun ⟨ha, hstr, hb, hr⟩ => ?_) fun ⟨hm, hst, hr⟩ => ?_)
        · exact ⟨haligns.mpr ha, hstring.mpr hstr, hgoes ha hb hr⟩
        · exact ⟨hswitches.mpr ⟨hm, hst⟩, hrole.trans hr⟩
      have hspec := v.trimPlan_spec p
      rw [hvc, hanswered, hvsettings] at hspec
      rw [hsent]
      exact hspec
    · rw [hport]
      exact plannedPort_sent_nothing (.inr ⟨hother h, fun ⟨hs, hr⟩ =>
        h' ⟨(hswitches.mp hs).1, (hswitches.mp hs).2, hrole.symm.trans hr⟩⟩)

end Machine
end Sys2Proof
